-- ==== Sys2Proof/Word.lean ====
section
/-! DEFINITION. The word types of the GL-2048 and the plain containers of the model (00_scope.md R4, R5). -/

namespace Sys2Proof

/-- A byte of a packet, a memory or a register (00_scope.md R4). -/
abbrev Byte := BitVec 8

/-- A 32-bit register or instruction word (00_scope.md R6). -/
abbrev Word := BitVec 32

/-- A byte string, offset 0 first, multi-byte fields most significant byte first (00_scope.md R5). -/
abbrev Bytes := List Byte

/-- A finite table from indices to entries, indices strictly rising; an index without an entry holds the default its
reader names. -/
abbrev Tab (α : Type) := List (Nat × α)

end Sys2Proof
end

