-- ==== Sys2Proof/Config.lean ====
section
/-! DEFINITION. What an implementation fixes and what the spec leaves open: constants without a body, of which nothing can
be proved (see the assumption log). -/

namespace Sys2Proof.Config

/-- DESIGN CHOICE (log entry 8): the direction in which the device rounds a quotient that the spec does not round. -/
opaque roundUp : Int → Nat → Bool

/-- DESIGN CHOICE (log entry 5): a fresh free value of 32 bits for each reading of the model's counter `free`
(the drawn BOOT_ID, 13 R320; the random spread of a Delay_Req, 02 R23; the arbitrary count of an UNSET base, 02 R20). -/
opaque freeWord : Nat → BitVec 32

/-- DESIGN CHOICE (log entry 6): the words of the boot ROM, whose contents the spec does not give (15 R355). -/
opaque bootRom : Nat → BitVec 32

/-- DESIGN CHOICE (log entry 133): the core cycles between two refreshes of an HBM bank at the JESD238 rate, which the spec does not
give (07 R173). -/
opaque refreshInterval : Nat

/-- DESIGN CHOICE (log entry 133): whether the access that the HBM controller accepted as its first argument's has completed by a core
cycle; the DRAM timing is not the spec's (07 R171, R172). -/
opaque accessDone : Nat → Nat → Bool

/-- DESIGN CHOICE (log entry 154): the bytes of an epoch's body by BOOT_ID, epoch and offset, and their number, which the spec bounds
but does not lay out (14 Table 14.5). -/
opaque epochByte : Nat → Nat → Nat → BitVec 8
opaque epochLength : Nat → Nat → Nat

/-- DESIGN CHOICE (log entry 27): the byte at an HBM address (second) of a region whose contents a programme swap left
undefined (07 R158); the first argument is the draw of that swap. -/
opaque freeByte : Nat → Nat → BitVec 8

end Sys2Proof.Config
end

