-- ==== Sys2Proof/Syntax.lean ====
section
/-! DEFINITION. The commands of the GL-2048: one constructor per row of the spec's table of operations and events, with the
row's operands. -/

namespace Sys2Proof

/-- The command transports (13 Table 13.1), in the order of the journal's TRANSPORT field. -/
inductive Transport where
  | managementPort | halfPort | sideband
  deriving DecidableEq, Repr

/-- Where a command packet came from, and so where its reply goes (13 R301, R308; 04 R78): the half-port, the source's MAC
address, IPv4 address and UDP port, and the tag of its frame. -/
structure Origin where
  transport : Transport
  hp : Nat
  mac : Nat
  ip : Nat
  port : Nat
  tag : Option Nat
  deriving DecidableEq, Repr

/-- The header of a Numin command that has passed steps 1 to 4 of Table 13.4, beside its opcode and parameters
(13 Tables 13.2 and 13.3). -/
structure CmdHdr where
  origin : Origin
  retransmit : Bool
  toStandby : Bool
  seq : BitVec 32
  session : BitVec 16
  deriving DecidableEq, Repr

/-- The block tags of places outside the engines (00 R8): an HBM stack, a lane, a Ringmaster, a Carousel branch, and an
engine's scratchpad, operand store, programme store and constant store. -/
inductive BlockTag where
  | H | L | N | K | S | O | I | J
  deriving DecidableEq, Repr

/-- A place that a location code names (00 R7 Table 0.6, R8). The cluster of an engine is its number divided by 16, and a code
stops after the tag of the unit that it names. -/
inductive Location where
  | package
  | die
  | cluster (c : Nat)
  | engine (e : Nat)
  | array (e : Nat)
  | cell (e m : Nat)
  | cellBit (e m b : Nat)
  | block (tag : BlockTag) (n : Nat) (bit : Option Nat)
  deriving DecidableEq, Repr

/-- The outcome that a pending command's background work meets in hardware (13 R311): whether the flash or the unit
failed, and for SELFTEST what the test found, with the place of the first failure. -/
structure WorkOutcome where
  failed : Bool
  passedCount : Nat
  failedCount : Nat
  location : Option Location
  deriving DecidableEq, Repr

/-- A request held by a freeze (07 R177, under Table 7.5). -/
structure HeldRequest where
  stack : Nat
  pc : Nat
  port : Nat
  write : Bool
  address : Nat
  age : Nat
  bank : Nat
  inOrder : Bool
  deriving DecidableEq, Repr

/-- The commands: one per row of the table of operations and events, with the operands that its rule names.
An operand with a default stands for that default where it is left out: no time has passed, no access served, no error seen. -/
inductive Instr where
  /-- HELLO (R308). Opens a session in a free slot, binds it to its transport and source, and assigns the observer or
  controller role. -/
  | hello (h : CmdHdr) (p : Bytes)
  /-- IDENTIFY (R2). Reports the variant, stepping, fuse state, serial number, boot id, firmware versions, image copy and
  fuse MAC base. -/
  | identify (h : CmdHdr) (p : Bytes)
  /-- GOODBYE (R310). Closes the session once its reply has been sent. -/
  | goodbye (h : CmdHdr) (p : Bytes)
  /-- ECHO (R316). Returns the data it was sent. -/
  | echo (h : CmdHdr) (p : Bytes)
  /-- GET_SETTING (R318). Returns a key's value from the layer asked for, or its effective value. -/
  | getSetting (h : CmdHdr) (p : Bytes)
  /-- SET_SETTING (R318). Writes a key's runtime value after the range, inter-key and state checks. -/
  | setSetting (h : CmdHdr) (p : Bytes)
  /-- COMMIT_PRESET (R423). Merges runtime values into a new settings slot of the active image copy. -/
  | commitPreset (h : CmdHdr) (p : Bytes)
  /-- REVERT_SETTING (R318). Removes one runtime value, or all of them together, under the SET_SETTING rules. -/
  | revertSetting (h : CmdHdr) (p : Bytes)
  /-- LIST_SETTINGS (R318). Lists, in ascending key order, the keys that hold a value in the chosen layer. -/
  | listSettings (h : CmdHdr) (p : Bytes)
  /-- GET_STATE (R317). Returns the items of one selector and optionally clears their counters. -/
  | getState (h : CmdHdr) (p : Bytes)
  /-- ENTER_POWER_STATE (R382). Starts a power transition, a handshake or a wake, toward the named state. -/
  | enterPowerState (h : CmdHdr) (p : Bytes)
  /-- RESUME (R396). Undoes latched shedding stages 3 to 5 in descending order when the sag allows it. -/
  | resume (h : CmdHdr) (p : Bytes)
  /-- LOAD_PROGRAMME (R249). Writes one image chunk into a programme slot and moves the slot toward LOADED. -/
  | loadProgramme (h : CmdHdr) (p : Bytes)
  /-- LOAD_PROGRAMME_SEGMENT (R277). Assembles a delay-table segment chunk for a generation and accepts or rejects the
  whole segment. -/
  | loadProgrammeSegment (h : CmdHdr) (p : Bytes)
  /-- VALIDATE_PROGRAMME (R266). Validates a LOADED image in a fixed order and leaves the slot VALID or INVALID. -/
  | validateProgramme (h : CmdHdr) (p : Bytes)
  /-- ARM_PROGRAMME (R267). Checks a VALID slot against the device state and arms it for a swap orbit. -/
  | armProgramme (h : CmdHdr) (p : Bytes)
  /-- HALT_PROGRAMME (R275). Returns an armed slot to VALID, or ends the programme in effect at an orbit. -/
  | haltProgramme (h : CmdHdr) (p : Bytes)
  /-- HALT_PROGRAMME_AT_ONCE (R275). Stops the programme in effect at once, sending stop requests and retiring waiting
  TRIGGER 1 descriptors. -/
  | haltProgrammeAtOnce (h : CmdHdr) (p : Bytes)
  /-- TB_CONFIGURE (R22). Writes the source, PTP half-port, domain and transport of a time base together. -/
  | tbConfigure (h : CmdHdr) (p : Bytes)
  /-- TB_STEP (R28). Steps an UNSET base, either at once or at the next PPS edge. -/
  | tbStep (h : CmdHdr) (p : Bytes)
  /-- TB_RESTEP (R32). Steps a running base, either to a time value or at the next measurement. -/
  | tbRestep (h : CmdHdr) (p : Bytes)
  /-- TB_STATUS (R48). Reports a time base's state, epoch id, time, offset, rate, step amount and counters. -/
  | tbStatus (h : CmdHdr) (p : Bytes)
  /-- TB_ALARM (R46). Arms or replaces one of the 16 time-base alarms. -/
  | tbAlarm (h : CmdHdr) (p : Bytes)
  /-- TB_ALARM_DISARM (R46). A TB_ALARM with MASK 0 disarms the named alarm in any state of the base. -/
  | tbAlarmDisarm (h : CmdHdr) (p : Bytes)
  /-- PORT_CONFIGURE (R56). Writes a half-port's configuration and retrains it at once, or sets electrical idle, or
  restarts the Management Port link. -/
  | portConfigure (h : CmdHdr) (p : Bytes)
  /-- PORT_STATUS (R69). Returns a half-port's or the Management Port's mode, state, causes, lane words and counters. -/
  | portStatus (h : CmdHdr) (p : Bytes)
  /-- LANE_LOOPBACK (R67). Sets or clears a loopback on all lanes of a half-port. -/
  | laneLoopback (h : CmdHdr) (p : Bytes)
  /-- LANE_EYE (R63). Starts a full eye scan of one lane. -/
  | laneEye (h : CmdHdr) (p : Bytes)
  /-- LANE_EYE_SCAN_COMPLETE (R63). The eye scan ends, background adaptation resumes and the eye map is reported. -/
  | laneEyeScanComplete (n phase volt : Nat) (counts : List Nat)
  /-- DMA_SUBMIT (R283). Writes host descriptors and optionally starts a host channel. -/
  | dmaSubmit (h : CmdHdr) (p : Bytes)
  /-- DMA_LINK (R296). Appends descriptors to a host chain with the CONTINUED, RESTARTED or PATCHED outcome. -/
  | dmaLink (h : CmdHdr) (p : Bytes)
  /-- DMA_STOP (R294). Puts a running host channel into STOPPING until its next descriptor boundary. -/
  | dmaStop (h : CmdHdr) (p : Bytes)
  /-- HBM_STATUS (R177). Returns the HBM snapshot header, the capture state and the requested held entries. -/
  | hbmStatus (h : CmdHdr) (p : Bytes)
  /-- HBM_THAW (R178). Resumes the held queues of a frozen controller and delivers failing granules marked bad. -/
  | hbmThaw (h : CmdHdr) (p : Bytes)
  /-- CAPTURE_FREEZE (R167). Triggers an ARMED capture. -/
  | captureFreeze (h : CmdHdr) (p : Bytes)
  /-- CAPTURE_RELEASE (R167). CAPTURE_FREEZE with RELEASE returns a FROZEN capture to ARMED. -/
  | captureRelease (h : CmdHdr) (p : Bytes)
  /-- CAPTURE_DUMP (R167). Sends a FROZEN capture as packets through DMA channel 61. -/
  | captureDump (h : CmdHdr) (p : Bytes)
  /-- EVENTS_READ (R367). Returns the sticky, enabled and pin maps. -/
  | eventsRead (h : CmdHdr) (p : Bytes)
  /-- EVENTS_CLEAR (R366). Clears the masked sticky bits and the cause masks of summary events. -/
  | eventsClear (h : CmdHdr) (p : Bytes)
  /-- FAULT_RECORD_READ (R378). Returns fault record slots and optionally empties exactly those slots. -/
  | faultRecordRead (h : CmdHdr) (p : Bytes)
  /-- EVENT_ROUTE (R368). Sets an event's route byte and evaluates the pins again. -/
  | eventRoute (h : CmdHdr) (p : Bytes)
  /-- JOURNAL_READ (R319). Returns journal entries from a given JSN. -/
  | journalRead (h : CmdHdr) (p : Bytes)
  /-- JOURNAL_MARK (R319). Writes a MARK entry that carries the host's tag. -/
  | journalMark (h : CmdHdr) (p : Bytes)
  /-- CU_STATUS (R327). Reports the Ringmaster states, heartbeat paths, copy epoch and switchover count. -/
  | cuStatus (h : CmdHdr) (p : Bytes)
  /-- CU_SWITCHOVER (R344). Performs a planned transfer of the baton to the standby unit. -/
  | cuSwitchover (h : CmdHdr) (p : Bytes)
  /-- CU_HEALTH (R343). Reports a unit's self-test, shadowing and health score. -/
  | cuHealth (h : CmdHdr) (p : Bytes)
  /-- CU_RESYNC (R346). Resets and restarts the unit that does not hold the baton. -/
  | cuResync (h : CmdHdr) (p : Bytes)
  /-- CAL_CONFIGURE (R402). Writes a Calliope channel's pending configuration. -/
  | calConfigure (h : CmdHdr) (p : Bytes)
  /-- CAL_QUEUE (R406). Appends samples to a Calliope channel queue if they fit. -/
  | calQueue (h : CmdHdr) (p : Bytes)
  /-- CAL_STROBE (R403). Strobes the named Calliope groups by command. -/
  | calStrobe (h : CmdHdr) (p : Bytes)
  /-- PEEK (R316). Reads words from HBM or the control space. -/
  | peek (h : CmdHdr) (p : Bytes)
  /-- POKE (R316). Writes words to HBM or the control space, subject to state checks. -/
  | poke (h : CmdHdr) (p : Bytes)
  /-- SELFTEST (R342). Runs a self-test of the standby unit, of engines or of half-ports. -/
  | selftest (h : CmdHdr) (p : Bytes)
  /-- IMAGE_WRITE (R424). Erases and programs one chunk of an image copy in flash. -/
  | imageWrite (h : CmdHdr) (p : Bytes)
  /-- IMAGE_VERIFY (R424). Checks an image copy's integrity and signature. -/
  | imageVerify (h : CmdHdr) (p : Bytes)
  /-- IMAGE_ACTIVATE (R424). Copies the settings slot and writes a new activation record for a verified copy. -/
  | imageActivate (h : CmdHdr) (p : Bytes)
  /-- COMMAND_PACKET_ARRIVAL (R445). The front end checks a command packet's magic and header CRC and queues the packet.
  -/
  | commandPacketArrival (o : Origin) (packet : Bytes)
  /-- PENDING_COMMAND_COMPLETE (R311). A pending command completes, its cached reply is replaced, and a COMPLETION entry
  is written. -/
  | pendingCommandComplete (session seq : Nat) (r : WorkOutcome)
  /-- SESSION_TIMEOUT (R310). A session with no packet for its TIMEOUT_S closes. -/
  | sessionTimeout (slot : Nat)
  /-- WRITE_END (R322). Sideband code 0xA1 appends bytes and submits the buffer as one Numin packet. -/
  | writeEnd (data : Bytes) (sent : Option Byte)
  /-- SB_BLOCK_WRITE_APPEND (R322). Sideband code 0xA0 appends bytes to the command buffer. -/
  | sbBlockWriteAppend (data : Bytes) (sent : Option Byte)
  /-- SB_READ_STATUS (R322). Sideband code 0xA2 returns REPLY_READY, BUSY and OVERRUN. -/
  | sbReadStatus
  /-- SB_BLOCK_READ (R322). Sideband code 0xA3 returns the next bytes of the reply. -/
  | sbBlockRead (n : Nat)
  /-- SB_DISCARD (R322). Sideband code 0xA4 discards the command buffer and the reply. -/
  | sbDiscard (sent : Option Byte)
  /-- SB_WAKE_ADDRESS_MATCH (R390). An address byte that equals PWR_SB_WAKE_ADDR is ACKed and starts a wake. -/
  | sbWakeAddressMatch (addr : Nat) (data : Nat := 0)
  /-- WAKE_N_LOW (R389). WAKE_N held low for two slow-clock cycles fires a wake. -/
  | wakeNLow
  /-- PORST_N_ASSERT (R431). PORST_N held low resets the device and holds its pins. -/
  | porstNAssert
  /-- BOOT (R415). The rising edge of PORST_N starts the boot sequence. -/
  | boot (pins : Nat)
  /-- BOOT_STEP_COMPLETE (R415). A boot step that waits for flash, training or firmware completes, and the next step
  begins. -/
  | bootStepComplete (bad repaired : List Nat)
  /-- TAP_RESET_INSTRUCTION_LOAD (R444). Loading EXTEST, EXTEST_PULSE, EXTEST_TRAIN, CLAMP or HIGHZ resets the device. -/
  | tapResetInstructionLoad (code : Nat)
  /-- TAP_RESET_INSTRUCTION_LEAVE (R444). Leaving those instructions boots the device as at PORST_N. -/
  | tapResetInstructionLeave (code pins : Nat)
  /-- TAP_RESET (R444). A TAP reset resets the debug access port master. -/
  | tapReset (pins : Nat)
  /-- BOOT_STATUS_RELEASE_A (R414). A write of RELEASE_A in DEBUG_HOLD releases unit A. -/
  | bootStatusReleaseA (m : Nat)
  /-- BOOT_STATUS_RELEASE_B (R414). A write of RELEASE_B in DEBUG_HOLD releases unit B. -/
  | bootStatusReleaseB (m : Nat)
  /-- ETH_FRAME_RECEIVE (R77). A frame received on an Ethernet half-port passes the receive checks in order. -/
  | ethFrameReceive (h dt : Nat) (frame : Bytes)
  /-- INGEST_FRAME_DRAIN (R447). The shared ingest drain takes an ingest frame out of a half-port buffer. -/
  | ingestFrameDrain (dt : Nat)
  /-- PATH_SILENT (R86). A path's last-seen time falls ING_SILENT_MS behind, and the path is marked SILENT. -/
  | pathSilent (path dt : Nat)
  /-- MP_FRAME_RECEIVE (R79). A Management Port frame is sorted into ARP, ICMP, command or drop. -/
  | mpFrameReceive (frame : Bytes)
  /-- MP_LINK_CHANGE (R72). The Management Port link goes up or down, and a gratuitous ARP is sent on link up. -/
  | mpLinkChange (up signal : Bool)
  /-- PTP_SYNC (R23). A Sync message is received and timestamped. -/
  | ptpSync (h : Nat) (layer2 : Bool) (dt : Nat) (m : Bytes)
  /-- PTP_FOLLOW_UP (R23). A Follow_Up message is matched to its Sync by sequenceId. -/
  | ptpFollowUp (h : Nat) (layer2 : Bool) (dt : Nat) (m : Bytes)
  /-- PTP_ANNOUNCE (R23). An Announce message feeds BMCA master selection and the UTC offset. -/
  | ptpAnnounce (h : Nat) (layer2 : Bool) (dt : Nat) (m : Bytes)
  /-- PTP_DELAY_RESP (R23). A Delay_Resp completes an offset measurement. -/
  | ptpDelayResp (h : Nat) (layer2 : Bool) (dt : Nat) (m : Bytes)
  /-- DELAY_REQ_SEND (R23). The Delay_Req interval timer expires, and a Delay_Req is sent. -/
  | delayReqSend (n dt : Nat)
  /-- TB_SYNC_TIMEOUT (R31). No accepted Sync or edge arrives for TBn_SYNC_TIMEOUT_MS, and the base enters HOLDOVER. -/
  | tbSyncTimeout (n : Nat)
  /-- PPS_IN_EDGE (R26). A PPS_IN rising edge steps the base or yields an offset measurement. -/
  | ppsInEdge (dt refCycles : Nat)
  /-- PPS_IN_LOST (R26). No PPS_IN edge arrives for 1.5 s, which counts as master lost. -/
  | ppsInLost (dt : Nat)
  /-- EV_TB_REF_MISSING (R29). REF10M_IN is absent for 2 s, and rate is measured from PPS_IN instead. -/
  | evTbRefMissing
  /-- REF10M_RETURN (R29). REF10M_IN returns, and nominal_correction is updated from its first whole second. -/
  | ref10mReturn (refCycles : Nat)
  /-- ALARM_FIRE (R47). A time base reaches an alarm time, and the alarm's actions are performed. -/
  | alarmFire (dt : Nat)
  /-- ORBIT_DEADLINE_CLOSE (R39). The deadline base reaches an orbit's ingest deadline, and the orbit closes by deadline.
  -/
  | orbitDeadlineClose (dt : Nat)
  /-- ORBIT_STAMP (R44). The deadline base reaches t(nT), and the orbit stamp is taken from TB0. -/
  | orbitStamp (dt : Nat)
  /-- PPS_OUT_PULSE (R45). A whole second or an orbit stamp instant raises TB_PPS_OUT. -/
  | ppsOutPulse (n dt : Nat)
  /-- PPS_OUT_PULSE_END (R45). TBn_PPS_WIDTH_US expires, and TB_PPS_OUT falls. -/
  | ppsOutPulseEnd (n dt : Nat)
  /-- FRAME_DEADLINE_CLOSE (R145). The frame deadline expires, and the corner-turn frame closes by deadline. -/
  | frameDeadlineClose (dt : Nat)
  /-- HP_RETRY_TIMER (R59). HP_RETRY_MS expires, and a new training attempt starts. -/
  | hpRetryTimer (h : Nat)
  /-- HP_TRAINING_COMPLETE (R57). All lanes and the line protocol report link, and the half-port is UP. -/
  | hpTrainingComplete (h rtt : Nat) (results : List (Nat × Nat × Nat × List Int))
  /-- HP_TRAINING_TIMEOUT (R59). A training attempt reaches its time limit and fails. -/
  | hpTrainingTimeout (h : Nat)
  /-- LANE_SIGNAL_LOSS (R60). Loss of signal on a lane for 1 µs declares a link loss. -/
  | laneSignalLoss (n : Nat)
  /-- LANE_LOCK_LOSS (R60). Loss of CDR, block, alignment or FEC lock declares a link loss. -/
  | laneLockLoss (h : Nat) (lane : Option Nat) (pll : Bool := false)
  /-- EYE_FAIL (R62). A lane's eye figure stays below LANE_EYE_FAIL for LANE_EYE_FAIL_MS, forcing a retrain. -/
  | eyeFail (n : Nat)
  /-- LANE_REFERENCE_LOST (R53). A lane reference is lost, and the half-ports of its group enter FAULT. -/
  | laneReferenceLost (k : Nat)
  /-- LANE_REFERENCE_RETURN (R53). A lost lane reference returns, and the half-ports of its group retrain. -/
  | laneReferenceReturn (k : Nat)
  /-- ELECTRICAL_IDLE_ENTER (R149). A Midway direction quiet for MW_IDLE_ENTER_US sends IDLE_NEXT and enters idle. -/
  | electricalIdleEnter (h : Nat)
  /-- FAST_EXIT (R65). A direction leaves electrical idle by a 1024-UI training burst. -/
  | fastExit (h : Nat) (tx : Bool) (dt : Nat)
  /-- IDLE_KEEPALIVE_EXIT (R149). LANE_IDLE_HOLD_MS / 2 of idle forces an exit to send one LINK block. -/
  | idleKeepaliveExit (h dt : Nat)
  /-- IDLE_EXIT_FAIL (R66). No block is accepted within 200 ns of the burst end, and the half-port retrains. -/
  | idleExitFail (h : Nat) (lanes : List Nat)
  /-- TRAIN_A (R137). A TRAIN_A block carries the lane order, identity checks and SEEN. -/
  | trainA (h : Nat) (body : Bytes) (lane : Nat := 0)
  /-- TRAIN_B (R139). A TRAIN_B block sets replay or sequence reset from NEXT_SEQ and OLDEST_SEQ. -/
  | trainB (h : Nat) (body : Bytes)
  /-- MW_LINK_BLOCK (R140). A received LINK block updates the acknowledgement, credit and NAK state. -/
  | mwLinkBlock (h : Nat) (body : Bytes)
  /-- MW_LINK_BLOCK_SEND (R134). Every 32nd block after training is sent as a LINK block. -/
  | mwLinkBlockSend (h : Nat) (idles : Nat := 0)
  /-- MW_FRAME_SEND (R140). The sender sends a staged frame once credit allows it. -/
  | mwFrameSend (h : Nat)
  /-- MW_DATA_FRAME (R143). A DATA frame is acknowledged, and then placed, or discarded as late or early. -/
  | mwDataFrame (h : Nat) (started : Bool) (frame : Bytes)
  /-- MW_CLOSE_FRAME (R145). A CLOSE frame marks a contributor's orbit closed, which may close the frame. -/
  | mwCloseFrame (h : Nat) (frame : Bytes)
  /-- MW_CONTROL_ERROR (R133). A control block with a bad CRC-8 or a reserved type is ignored and counted. -/
  | mwControlError (h : Nat)
  /-- MW_REPLAY_TIMEOUT (R142). No acknowledgement arrives for MW_REPLAY_TIMEOUT_US, and the sender resends. -/
  | mwReplayTimeout (h : Nat)
  /-- EV_MW_PEER_LOST (R148). A link is not UP for MW_PEER_LOST_MS, and its peer is lost. -/
  | evMwPeerLost (h : Nat)
  /-- SLICER_BLOCK (R103). A block of F digitiser samples passes the NCO, the polyphase filter, the FFT and the
  requantiser. -/
  | slicerBlock (path : Nat)
  /-- FINE_FILTERBANK_BLOCK (R111). A block of C slice samples passes the DC block, the filter, the FFT, the rotation and
  the requantiser. -/
  | fineFilterbankBlock (path slice : Nat)
  /-- CT_RUN_WRITE (R161). A queued 64-sample run is written to its ring position or rejected as an overrun.
  `served` are the accesses that the controller has served by then. -/
  | ctRunWrite (dt : Nat := 0) (served : List Nat := [])
  /-- CT_READ_BLOCK (R164). The reader reads one read block with coarse delay and validity and sends it to the Carousel.
  -/
  | ctReadBlock (dt : Nat := 0) (served : List Nat := [])
  /-- ACT_BOUNDARY (R262). The reader begins a closed frame, and that frame's due acts start. -/
  | actBoundary
  /-- PROGRAMME_SWAP (R270). The first stage reaches the swap orbit, the old slot retires and the new one takes effect. -/
  | programmeSwap
  /-- PROGRAMME_RETIRED (R272). The tail window ends and old chains are idle, so the slot becomes EMPTY. -/
  | programmeRetired
  /-- CAPTURE_TRIG_EDGE (R167). A rising edge on CAPTURE_TRIG triggers an ARMED capture. -/
  | captureTrigEdge
  /-- CAPTURE_RUN_WRITE (R166). The capture writer stores a run, or drops it after 2 µs. -/
  | captureRunWrite (dt : Nat)
  /-- HBM_UNCORRECTABLE_ERROR (R177). An uncorrectable or CA-parity error freezes the controller and takes a snapshot. -/
  | hbmUncorrectableError (kind a port syndrome : Nat) (held : List HeldRequest)
  /-- HBM_CORRECTED_ERROR (R175). A single-bit error is corrected and counted. -/
  | hbmCorrectedError (a b : Nat)
  /-- HBM_SCRUB (R176). The scrub reads, checks and corrects a granule. -/
  | hbmScrub (found b : Nat) (held : List HeldRequest := [])
  /-- HBM_REFRESH (R173). A per-bank refresh falls due and is issued. -/
  | hbmRefresh (stack : Nat := 0) (pc : Nat := 0) (bank : Nat := 0)
  /-- HBM_RETIME (R174). HBM_TRAIN_MS expires, and a stack's WDQS oscillator is read and retimed. -/
  | hbmRetime (stack : Nat)
  /-- EV_HBM_TEMP_WARN (R179). A stack sensor reaches HBM_TEMP_WARN_C. -/
  | evHbmTempWarn (stack : Nat) (t : Int)
  /-- CAROUSEL_BLOCK_DELIVER (R189). A block is delivered once every subscribing ring has room. -/
  | carouselBlockDeliver (bad : List (Nat × Nat × Nat))
  /-- NOP (R198). Does nothing. -/
  | nop (e : Nat)
  /-- ADD (R198). gd = ga + gb. -/
  | add (e d a b : Nat)
  /-- SUB (R198). gd = ga - gb. -/
  | sub (e d a b : Nat)
  /-- AND (R198). gd = ga AND gb. -/
  | and (e d a b : Nat)
  /-- OR (R198). gd = ga OR gb. -/
  | or (e d a b : Nat)
  /-- XOR (R198). gd = ga XOR gb. -/
  | xor (e d a b : Nat)
  /-- SHL (R198). Shifts ga left by gb. -/
  | shl (e d a b : Nat)
  /-- SHR (R198). Shifts ga logically right by gb. -/
  | shr (e d a b : Nat)
  /-- SRA (R198). Shifts ga arithmetically right by gb. -/
  | sra (e d a b : Nat)
  /-- SLT (R198). Sets gd to 1 if ga < gb (signed), else 0. -/
  | slt (e d a b : Nat)
  /-- ADDI (R198). Adds an immediate to ga. -/
  | addi (e d a : Nat) (imm : Int)
  /-- LUI (R198). Loads an upper immediate into gd. -/
  | lui (e d imm : Nat)
  /-- MUL2 (R197). Computes two low-24-bit products with a shared first operand. -/
  | mul2 (e d a b c : Nat)
  /-- MULW (R197). Computes a 48-bit signed product into a register pair. -/
  | mulw (e d a b : Nat)
  /-- MOVAG (R198). Loads an address register from a general register. -/
  | movag (e k b : Nat)
  /-- MOVGA (R198). Loads a general register from an effective address. -/
  | movga (e d k : Nat)
  /-- ADDA (R196). Advances an address register under the circular rule. -/
  | adda (e k : Nat) (imm : Int)
  /-- SETC (R188). Sets a circular base and length and resets the feed ring. -/
  | setc (e k b c : Nat)
  /-- LDC (R198). Loads a constant store word. -/
  | ldc (e d k imm : Nat)
  /-- STC (R198). Stores a constant store word. -/
  | stc (e k b imm : Nat)
  /-- RDLC (R200). Reads a loop counter. -/
  | rdlc (e d l : Nat)
  /-- BR (R200). Branches with two delay slots. -/
  | br (e target : Nat)
  /-- BZ (R198). Branches if gg = 0. -/
  | bz (e r target : Nat)
  /-- BNZ (R198). Branches if gg is not 0. -/
  | bnz (e r target : Nat)
  /-- BLTZ (R198). Branches if gg < 0. -/
  | bltz (e r target : Nat)
  /-- BGEZ (R198). Branches if gg >= 0. -/
  | bgez (e r target : Nat)
  /-- JAL (R198). Jumps and puts the link in g15. -/
  | jal (e target : Nat)
  /-- JR (R198). Jumps to a register address. -/
  | jr (e r : Nat)
  /-- REPEAT (R200). Repeats the body COUNT times. -/
  | repeatLoop (e l len count : Nat)
  /-- REPEATG (R200). Repeats the body a register-given number of times. -/
  | repeatLoopG (e l len r : Nat)
  /-- WAITF (R198). Stalls until a feed ring's fill reaches N. -/
  | waitf (e k n : Nat)
  /-- FREEF (R198). Lowers a feed ring's fill once earlier passes have streamed. -/
  | freef (e k n : Nat)
  /-- WAITO (R202). Ends the act and waits for the next one. -/
  | waito (e : Nat)
  /-- PSYNC (R198). Stalls until the pass queue is empty and write-backs are done. -/
  | psync (e : Nat)
  /-- TACQ (R194). Binds a slot to a tile, optionally waiting for its token. -/
  | tacq (e slot gt gc : Nat) (h : Bool)
  /-- TREL (R194). Releases a slot and sets its tile's token to RELEASED. -/
  | trel (e slot : Nat) (bad : Option Nat)
  /-- TCLR (R198). Clears a slot's records and flags. -/
  | tclr (e slot : Nat)
  /-- PASS (R199). Issues a correlation pass to the queue. -/
  | pass (e kr kc slot gs : Nat) (real ir ic : Bool)
  /-- BLOAD (R232). Loads the beam weights into the array's weight buffer. -/
  | bload (e k : Nat) (iw : Bool) (bad : Option Nat)
  /-- BPASS (R233). Issues a beam pass over one granule. -/
  | bpass (e kc slot : Nat) (ic : Bool)
  /-- DKICK (R292). Raises one DMA peripheral request on a channel. -/
  | dkick (e ch : Nat)
  /-- ENGINE_STALL_RESUME (R192). A stalled instruction or pass proceeds once the data, room, BUSY or token it waited for
  is there. -/
  | engineStallResume (e : Nat)
  /-- ENG_STALL_WARN (R205). A feed or token wait passes ENG_STALL_WARN_US. -/
  | engStallWarn (e dt : Nat)
  /-- PASS_STREAM_START (R199). A queued pass starts streaming once the array is free. -/
  | passStreamStart (e : Nat) (bad : List (Nat × Nat))
  /-- PASS_WRITE_BACK (R215). A pass's beat sums are converted and added to the slot's records. -/
  | passWriteBack (e : Nat) (bad : Option Nat)
  /-- BPASS_WRITE_BACK (R233). A beam pass's row sums are added to the slot's records. -/
  | bpassWriteBack (e : Nat) (bad : Option Nat)
  /-- PASS_REPLAY (R224). The replay blocks arrive, and the pass streams again. -/
  | passReplay (e : Nat) (bad : List (Nat × Nat))
  /-- ENGINE_STOP (R201). The engine reaches an interruptible point and stops for a stop request. -/
  | engineStop (e : Nat)
  /-- STORE_REFETCH (R203). A store word with bad parity is refetched from HBM, and the sequencer continues. -/
  | storeRefetch (e : Nat) (const : Bool) (addr b : Nat)
  /-- DMA_BURST_START (R287). An eligible channel is granted and starts a burst. -/
  | dmaBurstStart (dt : Nat) (room : List Nat) (withdrawn : Bool) (bad : Option Nat) (served : List Nat := [])
  /-- DMA_BURST_COMPLETE (R284). A burst completes and may complete its descriptor and fetch the next. -/
  | dmaBurstComplete (dt : Nat := 0)
  /-- SLOT_WAIT_LONG (R288). A BUSY or token wait passes DMA_STALL_WARN_US. -/
  | slotWaitLong (c dt : Nat)
  /-- LINK_NEW (R296). A write to LINK_NEW performs a link with e = LINK_EXPECT. -/
  | linkNew (c a : Nat)
  /-- DMA_CAUSE_W1C (R298). Writing 1 to a DMA CAUSE bit clears it. -/
  | dmaCauseW1c (c mask : Nat)
  /-- STICKY_W1C (R366). A W1C write to the sticky words clears event bits. -/
  | stickyW1c (i value : Nat)
  /-- COUNTER_CLEAR (R371). A write to COUNTER_CLEAR clears every occurrence counter. -/
  | counterClear (value : Nat)
  /-- ENGINE_CAUSE_W1C (R360). A W1C write clears engine cause bits. -/
  | engineCauseW1c (e mask : Nat)
  /-- BUS_COUNTER_CLEAR (R363). Writing bit 0 clears a master's bus counters. -/
  | busCounterClear (m k v : Nat)
  /-- WDOG_KICK (R330). 0x5A then 0xA5 restarts the unit's watchdog. -/
  | wdogKick (m u value : Nat)
  /-- COMMIT_JSN_LO (R335). Performs the trigger write and sets EFFECT_JSN in one transaction. -/
  | commitJsnLo (m v : Nat)
  /-- RELEASE (R328). The holder releases the baton to the standby. -/
  | release (m : Nat)
  /-- CALLIOPE_STROBE_REGISTER (R410). A write to STROBE strobes the groups given in its bits. -/
  | calliopeStrobeRegister (value : Nat)
  /-- QUEUE_APERTURE_WRITE (R406). Appends two samples to a Calliope queue, or drops the write. -/
  | queueApertureWrite (n word : Nat)
  /-- SYSCTL_REMAP_WRITE (R355). A write of REMAP or FORCE_SLICES changes the windows or the slice mode. -/
  | sysctlRemapWrite (m v : Nat)
  /-- REGISTER_WRITE (R6). A write to a register that has no behaviour of its own sets its RW fields. -/
  | registerWrite (m a v : Nat)
  /-- BUS_TRANSACTION (R351). A master's transaction is decoded and served, or completed as a decode error. -/
  | busTransaction (m : Nat) (write : Bool) (a : Nat) (beats : List (Nat × Nat)) (done : Nat) (stops : List Nat)
  /-- EV_BUS_TIMEOUT (R360). A target exceeds 10 µs, and its port closes. -/
  | evBusTimeout (m : Nat)
  /-- SLICE_MODE_SWITCH (R361). The matrix switches register slices at a quiet point. -/
  | sliceModeSwitch
  /-- EVENT_PACKET_SEND (R373). The hold-off ends or 64 records are queued, and an event packet is sent. -/
  | eventPacketSend (dt : Nat)
  /-- WATCHDOG_EXPIRY (R330). CU_WDOG_MS passes without a kick, the unit is reset and the baton is freed if held. -/
  | watchdogExpiry (u : Nat)
  /-- HEARTBEAT_PATH_LOST (R331). No change on a heartbeat path for CU_HB_MISS periods. -/
  | heartbeatPathLost (u path : Nat)
  /-- HEARTBEAT_PATH_BACK (R331). Changes seen in CU_HB_MISS periods declare a path back. -/
  | heartbeatPathBack (u path : Nat)
  /-- EPOCH_COPY (R337). The holder writes a numbered epoch of its state. -/
  | epochCopy (whole : Bool)
  /-- EPOCH_COMMIT (R338). The standby commits a complete epoch to its shadow state. -/
  | epochCommit (u : Nat) (bad : Bool)
  /-- BATON_CLAIM (R339). A unit claims the free baton and takes over from the newest complete epoch. -/
  | batonClaim (u : Nat)
  /-- SHADOW_EXECUTE (R341). The standby executes a command record on its shadow state and compares digests. -/
  | shadowExecute (u : Nat) (differs : Bool)
  /-- SELFTEST_CYCLE_STEP (R342). The standby runs a step of its self-test plan. -/
  | selftestCycleStep (u : Nat) (passed : Bool)
  /-- UNIT_RESTART (R345). CU_RESET_HOLD_MS expires, and the unit reloads its firmware and restarts. -/
  | unitRestart (u : Nat) (flashBad : Bool)
  /-- HANDSHAKE_BLOCK_ANSWER (R385). A handshake block answers AGREE, DELAY or REFUSE. -/
  | handshakeBlockAnswer (delay : Bool)
  /-- HANDSHAKE_BUDGET_EXPIRY (R385). A block's budget runs out, which counts as REFUSE TIMEOUT. -/
  | handshakeBudgetExpiry
  /-- WAKE_STEP_COMPLETE (R391). A wake step completes, and the next step starts or the wake ends. -/
  | wakeStepComplete (repaired : List Nat)
  /-- WAKE_STEP_TIMEOUT (R392). A wake step attempt times out, and it is retried or the wake fails. -/
  | wakeStepTimeout (failing : List Nat)
  /-- SUPPLY_MONITOR_SAMPLE (R393). The rails are sampled and the sag is computed. -/
  | supplyMonitorSample (rails : List Nat)
  /-- SHED_STAGE_ENTER (R394). The sag stays above a stage threshold for the filter time, and the stage is entered. -/
  | shedStageEnter (k : Nat)
  /-- SHED_STAGE_EXIT (R395). The sag stays below threshold minus hysteresis, and stage 1 or 2 ends. -/
  | shedStageExit (k : Nat)
  /-- TJ_SENSOR_READ (R397). The junction sensor is read, with warning and trip. -/
  | tjSensorRead (t : Int)
  /-- XTAL_LOST (R383). The crystal stops, and the slow clock returns to the internal oscillator. -/
  | xtalLost
  /-- XTAL_RETRY (R383). Every 10 s the crystal is tried again. -/
  | xtalRetry
  /-- CORE_CLOCK_LOST (R384). REFCLK_CORE is lost or a core or HBM PLL unlocks, entering stage 5. -/
  | coreClockLost (hbm : Bool)
  /-- MP_PLL_UNLOCK (R384). The Management Port PLL unlocks, and the link restarts every 100 ms. -/
  | mpPllUnlock
  /-- CAL_LOAD_EDGE (R403). A rising edge on CAL_LOAD strobes CAL_PIN_GROUPS. -/
  | calLoadEdge
  /-- CAL_STROBE_APPLY (R404). A strobe acts at its DAC sample, activating pending configurations. -/
  | calStrobeApply (dt : Nat)
  /-- CAL_QUEUE_SAMPLE (R406). Every DIVIDER samples a queue sample is taken in MODE 2. -/
  | calQueueSample (n dt : Nat) (bad : Bool)
  /-- SWITCHOVER_TIMEOUT (R344). No standby commit of epoch e arrives by t0 + 5 ms, so CU_SWITCHOVER fails with HW_FAULT
  and nothing changes. -/
  | switchoverTimeout
  /-- STARTUP_SELFTEST_COMPLETE (R345). A restarted Ringmaster finishes its firmware load and start-up self-test and
  enters SYNCING, or fails the restart. -/
  | startupSelftestComplete (u : Nat) (passed : Bool)
  /-- EYE_FIGURE_REFRESH (R61). A lane's background eye measurement completes, its figure is refreshed and the equaliser
  may adapt, and a crossing below LANE_EYE_WARN or LANE_EYE_FAIL is detected. -/
  | eyeFigureRefresh (n h v : Nat) (trial : Option (Nat × List Int × Nat × Nat)) (sync : Nat := 0) (prbs : Nat := 0)
      (corrected : Nat := 0)
  /-- UNCORRECTABLE_CODEWORD (R70). The RS-FEC decoder meets an uncorrectable codeword, which sets cause FEC_UNCORRECTED
  and raises EV_HP_SUMMARY. -/
  | uncorrectableCodeword (h : Nat)
  /-- SLOW_CLOCK_TO_XTAL (R383). Once XTAL_SLOW has run 32,768 clean cycles, the power controller switches the slow clock
  from the internal oscillator to the crystal. -/
  | slowClockToXtal
  /-- CAL_NCO_SAMPLE (R405). Each DAC sample in MODE 1 produces a code from the sine table and advances the phase
  accumulator by PHASE_INC. -/
  | calNcoSample (n dt : Nat)
  /-- MP_LINK_RESTART (R384). While the Management Port PLL is unlocked, the port restarts its link every 100 ms until the
  PLL locks again. -/
  | mpLinkRestart (locked : Bool)
  deriving DecidableEq, Repr

end Sys2Proof
end

