-- ==== Sys2Proof/Machine/State.lean ====
section
/-! DEFINITION. The state of the GL-2048 as plain data, chapter by chapter, and the state right after reset: PORST_N held
low (20 R431). Every field's default is its reset value; INVENTORY.md names the rule and the value of each. -/

namespace Sys2Proof.Machine

/-! ### Device, fuses and settings (00_scope.md, 19 R422) -/

/-- The two variants (00 R1, Table 0.1). -/
inductive Variant where
  | gl2048 | gl1024
  deriving DecidableEq, Repr

/-- What the fuses hold (00 R2, 19 R422 Table 19.6). DESIGN CHOICE (log entry 4): a blank GL-2048. -/
structure Fuses where
  variant : Variant := .gl2048
  stepping : Byte := 1
  serial : BitVec 64 := 0
  macBase : BitVec 48 := 0
  keySet : Bool := false
  keyHash : Bytes := []
  /-- Factory records: key and VALUE (19 Table 19.6). -/
  records : List (Nat × Nat) := []
  deriving DecidableEq, Repr

/-- The settings layers above the factory layer (00 R9 to R11): key to 64-bit value. -/
structure SettingLayers where
  runtime : Tab Nat := []
  image : Tab Nat := []
  deriving DecidableEq, Repr

/-! ### Time bases and orbits (02_time_bases.md) -/

/-- Table 2.1. -/
inductive TbMode where
  | disabled | unset | locking | locked | holdover
  deriving DecidableEq, Repr

/-- A master that an Announce has shown, with its BMCA data set (02 R23). -/
structure Foreign where
  clock : Nat
  port : Nat
  priority1 : Nat
  quality : Nat
  priority2 : Nat
  grandmaster : Nat
  steps : Nat
  utc : Int
  /-- The core cycle of its last Announce, and the cycles for which that counts. -/
  seen : Nat
  window : Nat
  deriving DecidableEq, Repr

/-- A step that waits for its edge or its measurement (02 R26, R32). -/
inductive StepWait where
  /-- TB_STEP on a PPS base: the seconds it carries. -/
  | first (seconds : Nat)
  /-- TB_RESTEP with FORM 0 on a PPS base. -/
  | restep (seconds : Nat)
  /-- TB_RESTEP with FORM 1: the next accepted measurement, outliers included. -/
  | measure
  deriving DecidableEq, Repr

/-- One time base (02 R19 to R33, R45, R48). Counts are in units of 2^-32 ns; offsets in units of 2^-33/125 ns, in which
picoseconds, counts and half offsets are all whole. -/
structure TimeBase where
  mode : TbMode := .disabled
  count : Nat := 0
  increment : Nat := 2 ^ 32
  lastEpoch : Nat := 0
  /-- The servo's accumulator in units of 2^-30 of an offset unit. -/
  acc : Int := 0
  rateNum : Int := 0
  rateDen : Nat := 1
  nominalNum : Int := 0
  nominalDen : Nat := 1
  inWindow : Nat := 0
  rejectedRun : Nat := 0
  lastOffset : Int := 0
  stepNs : Int := 0
  utcOffset : Int := 0
  foreign : List Foreign := []
  master : Option (Nat × Nat) := none
  /-- The two-step Syncs awaiting their Follow_Ups, newest first: sequenceId, receive time, correction, log interval, core cycle. -/
  syncWait : List (Nat × Int × Int × Int × Nat) := []
  /-- The last Sync's origin time and (receive time - origin time), and whether it already gave a measurement. -/
  syncLast : Option (Int × Int × Bool) := none
  syncInterval : Int := 0
  /-- A Delay_Req awaiting its Delay_Resp: sequenceId and transmit time. -/
  delayReq : Option (Nat × Int) := none
  /-- How many Delay_Reqs the base has sent; the low 16 bits are the next one's sequenceId. -/
  delaySent : Nat := 0
  /-- t4 - t3 of a Delay_Resp that no Sync preceded. -/
  delayPair : Option Int := none
  pathDelay : Option Int := none
  stepWait : Option StepWait := none
  /-- The core cycle of the last PPS edge. -/
  ppsLast : Option Nat := none
  refMissing : Bool := false
  accepted : Nat := 0
  rejected : Nat := 0
  violations : Nat := 0
  timeouts : Nat := 0
  /-- The count at which the pulse in progress ends; none while the pin is low. -/
  ppsOut : Option Nat := none
  /-- Pulses are withheld for the rest of the second, or orbit, of a step (02 R45). -/
  ppsHold : Option Nat := none
  deriving DecidableEq, Repr

/-- One of the 16 alarms (02 R46). -/
structure Alarm where
  /-- The alarm time, in the units of a base's count. -/
  time : Nat
  period : Nat
  mask : Nat
  groups : Nat
  deriving DecidableEq, Repr

/-- A timestamp as packets and entries carry it: the packed form and the epoch id (02 R50). -/
structure Stamp where
  packed : Nat := 0
  epoch : Nat := 0
  deriving DecidableEq, Repr

/-- The values an orbit opened with (02 R43). -/
structure OrbitTerms where
  margin : Nat
  slackUs : Nat
  zeroS : Nat
  zeroNs : Nat
  base : Nat
  frameSlackUs : Nat
  deriving DecidableEq, Repr

/-- Sample indices and orbits at ingest (02 R34 to R44). -/
structure Orbits where
  frontier : Option Nat := none
  /-- The oldest orbit open at ingest; none with no programme in effect. -/
  oldest : Option Nat := none
  terms : Tab OrbitTerms := []
  stamps : Tab Stamp := []
  /-- The orbits, open at ingest or still to open, whose stamp has been taken (02 R44). -/
  stampTaken : List Nat := []
  /-- Orbits that ingest closed by deadline (02 R39). -/
  byDeadline : List Nat := []
  noDeadlineRaised : Bool := false
  deriving DecidableEq, Repr

/-! ### Events and the fault record (16_events_and_faults.md) -/

/-- A record waiting for an event packet (16 R373): event, cause bits and the core cycle it was set. -/
structure EventRecord where
  event : Nat
  cause : Nat
  cycle : Nat
  deriving DecidableEq, Repr

/-- An entry of the fault record (16 Table 16.5, without its CRC, which is a function of the rest). -/
structure FaultEntry where
  fsn : Nat
  event : Nat
  unit : Nat
  timeUnset : Bool
  stamp : Stamp
  repeats : Nat
  detail : Nat
  orbit : Nat
  location : Bytes
  deriving DecidableEq, Repr

/-- The event tree (16 R365 to R379). -/
structure Events where
  sticky : BitVec 1024 := 0
  routes : Tab Byte := []
  occurrences : Tab Nat := []
  queue : List EventRecord := []
  /-- The stamp of the first record queued and the core cycle it was set. -/
  holdStamp : Stamp := {}
  holdCycle : Nat := 0
  lost : Bool := false
  packetSeq : Nat := 0
  packetsSent : Nat := 0
  packetsDropped : Nat := 0
  recordsSent : Nat := 0
  recordsDropped : Nat := 0
  faults : Tab FaultEntry := []
  nextFsn : Nat := 1
  overflows : Nat := 0
  deriving DecidableEq, Repr

/-! ### Lanes, half-ports and the Management Port (03_lanes_and_ports.md, 04 R77 to R98, R447) -/

/-- Lane and half-port STATE (03 Table 3.6), in code order. -/
inductive LinkState where
  | off | training | up | idle | loopback | fault | test
  deriving DecidableEq, Repr

/-- One lane of a half-port (03 Table 3.6, R63, R69). -/
structure Lane where
  signal : Bool := false
  cdrLock : Bool := false
  blockLock : Bool := false
  eye : Nat := 0
  ctle : Nat := 0
  txPre : Nat := 0
  txPost : Nat := 0
  dfe : List Int := [0, 0, 0, 0, 0]
  syncErrors : Nat := 0
  prbsErrors : Nat := 0
  idleExits : Nat := 0
  idleFails : Nat := 0
  losses : Nat := 0
  deriving DecidableEq, Repr

/-- An ingest frame in a receive buffer: its bytes, its UDP payload and the oldest orbit that was open at ingest when its
FCS check completed (04 R447, R82, R84). -/
structure IngestFrame where
  length : Nat
  oldest : Option Nat
  payload : Bytes
  deriving DecidableEq, Repr

/-- A frame in a Midway link's staging: its SEQ is given when it is sent (06 R132, R144). -/
structure MwOut where
  close : Bool
  orbit : Nat
  offset : Nat
  payload : Bytes
  deriving DecidableEq, Repr

/-- A frame in a Midway link's replay buffer (06 R140). -/
structure MwFrame where
  seq : Nat
  orbit : Nat
  bytes : Bytes
  close : Bool := false
  /-- Its data were discarded before a resend, so that it goes out empty (06 R143). -/
  emptied : Bool := false
  deriving DecidableEq, Repr

/-- A receive frame buffer that stage B has not yet freed: the last slice sample that its frame placed (06 R140). -/
structure RxBuffer where
  path : Nat
  slice : Nat
  last : Nat
  deriving DecidableEq, Repr

/-- The Midway protocol state of a link, kept on its half-port, for a full port on the even one (06 R134 to R154). -/
structure MwLink where
  nextSeq : Nat := 0
  staged : List MwOut := []
  /-- The bytes of each segment not yet in a frame, by path * 256 + slice, and the bytes of its orbit already framed. -/
  building : Tab (Nat × Bytes) := []
  replay : List MwFrame := []
  ackSeen : Nat := 0xFFFF
  creditLimit : Nat := 64
  nakActed : Option Nat := none
  /-- The next frame of the replay buffer to be resent. -/
  resendFrom : Option Nat := none
  resends : Nat := 0
  /-- Orbits closed at ingest whose CLOSE waits for the last DATA frame, with INGEST_DEADLINE (06 R144). -/
  closeDue : List (Nat × Bool) := []
  /-- The orbits whose data were discarded before sending (06 R144). -/
  discarded : List Nat := []
  expected : Nat := 0
  nakOut : Bool := false
  /-- The LANE that each lane of the link has received in TRAIN_A, by its physical number (06 R137). -/
  lanesSeen : Tab Nat := []
  seenSent : Bool := false
  seenByPartner : Bool := false
  partner : Option Nat := none
  partnerReset : Bool := false
  trainedOnce : Bool := false
  wrongPeer : Bool := false
  peerLost : Bool := false
  /-- MW_DEVICE_ID and MW_MESH_ID as the training attempt took them (06 R155). -/
  ownDevice : Nat := 0
  ownMesh : Nat := 0
  /-- ACK_SEQ, CREDIT_LIMIT and NAK of the last LINK block sent. -/
  ackSent : Nat := 0xFFFF
  granted : Nat := 64
  nakSent : Bool := false
  /-- The blocks sent since training, modulo 32 (06 R134). -/
  blocks : Nat := 0
  /-- The receive frame buffers that hold a placed frame (06 R140). -/
  rxHeld : List RxBuffer := []
  /-- The next expected word offset of each segment, by (orbit * 2048 + path) * 256 + slice. -/
  segNext : Tab Nat := []
  /-- The core cycles of the violations of the last 1 ms (06 R151). -/
  violationTimes : List Nat := []
  roundTrip : Nat := 0
  counters : Tab Nat := []
  deriving DecidableEq, Repr

/-- One half-port (03 R54 to R70, 04 R77, R97, R447). -/
structure HalfPort where
  state : LinkState := .off
  lanes : Tab Lane := []
  cause : Nat := 0
  fails : Nat := 0
  /-- A failed attempt or a link loss waits for HP_RETRY_MS (03 R59). -/
  retryWait : Bool := false
  /-- The half-port entered electrical idle without having been UP, so no fast exit ends it. -/
  idleHold : Bool := false
  /-- PORT_CONFIGURE with IDLE holds the half-port in electrical idle (03 R64). -/
  parked : Bool := false
  txIdle : Bool := false
  rxIdle : Bool := false
  /-- The core cycle in which the transmit direction entered electrical idle (03 R66). -/
  idleSince : Nat := 0
  loopKind : Nat := 0
  /-- In a near-end loopback, the frames sent that have not yet been received, oldest first (03 R67). -/
  looped : List Bytes := []
  scanLane : Option Nat := none
  stopped : Bool := false
  /-- The HPh_CONFIG word in force since the last training. -/
  trained : Nat := 0
  attempts : Nat := 0
  failed : Nat := 0
  linkLosses : Nat := 0
  fecCorrected : Nat := 0
  fecUncorrected : Nat := 0
  /-- The receive counters of 04 Table 4.12, by `RxClass`. -/
  rx : Tab Nat := []
  buffer : List IngestFrame := []
  /-- The core cycles of the FCS-class frames of the last 1 ms (04 R97). -/
  fcsTimes : List Nat := []
  mw : MwLink := {}
  deriving DecidableEq, Repr

/-- The Management Port (03 R71 to R73, R446). -/
structure MgmtPort where
  /-- 10GBASE-R; otherwise 1000BASE-X. -/
  fast : Bool := false
  /-- The power state asks for 10GBASE-R, as it does in ACTIVE and IDLE. -/
  wantFast : Bool := false
  /-- MP_MODE as the last link start took it. -/
  mode : Nat := 0
  state : LinkState := .off
  pllLocked : Bool := true
  cause : Nat := 0
  /-- The lane's eye figure and equaliser, which adapt as in R61. -/
  lane : Lane := {}
  /-- The settings in force since the last link start (03 R73): MP_AN, MP_RX_INV, MP_TX_INV, MP_TX_PRE, MP_TX_POST. -/
  an : Nat := 1
  rxInv : Nat := 0
  txInv : Nat := 0
  txPre : Nat := 0
  txPost : Nat := 8
  /-- The counters of R446, by `MpCtr`. -/
  counters : Tab Nat := []
  deriving DecidableEq, Repr

/-! ### Ingest (04 R83 to R88) -/

/-- A 64-sample granule held for a path (04 R85, R87). -/
structure Granule where
  valid : Bool
  samples : List (Int × Int)
  deriving DecidableEq, Repr

/-- The ingest state of one path (04 R85 to R88). -/
structure IngestPath where
  counters : Tab Nat := []
  /-- In whole nanoseconds of the deadline base. -/
  lastSeen : Option Nat := none
  lastSeenEpoch : Nat := 0
  silent : Bool := false
  lastSeq : Option Nat := none
  granules : Tab Granule := []
  /-- Samples of stage B runs dropped while the controller was frozen (07 R177; log entry 134). -/
  missing : Nat := 0
  deriving DecidableEq, Repr

/-- The ingest of the device (04 R88, R447). -/
structure Ingest where
  paths : Tab IngestPath := []
  malformed : Nat := 0
  noProgramme : Nat := 0
  unknownPath : Nat := 0
  orbitsByDeadline : Nat := 0
  framesByDeadline : Nat := 0
  /-- The half-port the shared drain served last (04 R447). -/
  drainLast : Nat := 127
  deriving DecidableEq, Repr

/-! ### Commands, sessions, the journal and the Sideband (13_command_protocol.md) -/

/-- Status codes (13 Table 13.5). -/
inductive Status where
  | ok | acceptedPending | badHeader | badCheck | badOpcode | badLength | badParam | badState | notActiveUnit | busy
  | refused | staleSequence | noSession | hwFault | frozen
  deriving DecidableEq, Repr

/-- A reply packet: the header of its command, its status, JSN and reply parameters (13 R304). -/
structure Reply where
  origin : Origin
  version : Nat := 1
  flags : Nat
  seq : Nat
  session : Nat
  opcode : Nat
  final : Bool
  status : Status
  jsn : Nat
  params : Bytes
  deriving DecidableEq, Repr

/-- An entry of a session's reply cache (13 R307). -/
structure CacheEntry where
  seq : Nat
  pending : Bool
  reply : Reply
  deriving DecidableEq, Repr

/-- One of the eight session slots (13 R307 to R310). -/
structure Session where
  isOpen : Bool := false
  incarnation : Nat := 0
  origin : Option Origin := none
  controller : Bool := false
  timeoutS : Nat := 0
  high : Nat := 0
  helloSeq : Nat := 0
  helloReply : Option Reply := none
  /-- Oldest to newest, in the order in which the entries became newest. -/
  cache : List CacheEntry := []
  /-- The consumed SEQ nearest H whose entry has been freed (13 R307, OLDEST_CACHED). -/
  freed : Option Nat := none
  deriving DecidableEq, Repr

/-- A packet in the command queue with the PASSING mark of its arrival, and whether it has waited for an interpreter (13 R324,
R445). -/
structure QueuedPacket where
  origin : Origin
  bytes : Bytes
  passing : Bool
  waited : Bool
  deriving DecidableEq, Repr

/-- What a pending command is doing (13 R311). -/
inductive PendingWork where
  | commitPreset (keys : Option (List Nat))
  | powerState (target : Nat)
  | validate (slot : Nat)
  | tbStep (base : Nat)
  | tbRestep (base : Nat)
  | laneEye (lane : Nat)
  | dmaStop (channel : Nat)
  | captureDump (orbit orbits hp : Nat) (dest : Bytes)
  | switchover
  | resync (unit : Nat)
  | selftest (scope first count : Nat)
  | imageWrite (copy offset : Nat) (data : Bytes)
  | imageVerify (copy : Nat)
  deriving DecidableEq, Repr

/-- A command that replied ACCEPTED_PENDING and has not completed (13 R311). -/
structure PendingCommand where
  session : Nat
  seq : Nat
  opcode : Nat
  origin : Origin
  paramLength : Nat
  digest : Nat
  work : PendingWork
  deriving DecidableEq, Repr

/-- A journal entry (13 Table 13.11, without its CRC, which is a function of the rest). -/
structure JournalEntry where
  jsn : Nat
  orbit : Nat
  stamp : Stamp
  session : Nat
  seq : Nat
  opcode : Nat
  status : Nat
  unit : Nat
  digest : Nat
  paramLength : Nat
  kind : Nat
  transport : Nat
  generation : Nat
  detail : Bytes
  deriving DecidableEq, Repr

/-- The Sideband's buffers (13 R322). -/
structure Sideband where
  command : Bytes := []
  reply : Bytes := []
  replyPos : Nat := 0
  ready : Bool := false
  busy : Bool := false
  overrun : Bool := false
  /-- The data bytes that the last read transaction returned. -/
  lastRead : Bytes := []
  /-- The address of the last transaction was ACKed (17 R390). -/
  ack : Bool := false
  /-- The data bytes of the last wake transaction, which were NACKed (17 R390). -/
  nacked : Nat := 0
  deriving DecidableEq, Repr

/-- The command protocol's state (13). -/
structure Commands where
  queue : List QueuedPacket := []
  /-- A command whose effect goes on and which replies at its end, with its session slot: the next one waits for it (17 R396). -/
  awaited : Option (Option Nat × Reply) := none
  sessions : Tab Session := []
  pending : List PendingCommand := []
  /-- Newest first, at most 4,096 (13 R319). -/
  journal : List JournalEntry := []
  nextJsn : Nat := 1
  /-- The highest JSN that a JOURNAL_READ has returned (13 R320). -/
  readJsn : Nat := 0
  bootId : Nat := 0
  /-- The counters of R324, by transport and `CmdCtr`. -/
  counters : Tab Nat := []
  sideband : Sideband := {}
  deriving DecidableEq, Repr

/-! ### Ringmasters and the baton (14_ringmasters.md) -/

/-- Ringmaster states in code order (14 Table 14.1). -/
inductive CuState where
  | off | booting | syncing | standby | active | isolated | takingOver | failed
  deriving DecidableEq, Repr

/-- One Ringmaster (14 R327 to R347). -/
structure CuUnit where
  state : CuState := .off
  inReset : Bool := true
  wdogExpired : Bool := false
  claim : Bool := false
  /-- 0x5A has been written and 0xA5 is awaited (14 R330). -/
  kickHalf : Bool := false
  badKicks : Nat := 0
  seesMailbox : Bool := true
  seesWire : Bool := true
  copyEpoch : Nat := 0
  copyJsn : Nat := 0
  shadowJsn : Nat := 0
  selftests : Nat := 0
  coverage : Nat := 0
  shadowed : Nat := 0
  mismatches : Nat := 0
  mismatchTimes : List Nat := []
  lastMismatch : Nat := 0
  mismatchSinceCommit : Bool := false
  failedSteps : Nat := 0
  cycleSteps : Nat := 0
  cyclePassed : Nat := 0
  cycleFailed : Nat := 0
  /-- The self-test step that failed once and is run again (14 R342). -/
  retryStep : Option Nat := none
  restartFails : Nat := 0
  /-- Restarted by repair or resync and not yet in STANDBY (14 R345 to R347). -/
  repairing : Bool := false
  reclaimDue : Bool := false
  /-- Held in reset, to be restarted after CU_RESET_HOLD_MS (14 R345). -/
  repairDue : Bool := false
  /-- Shadowing has stopped at an overwritten record until the next commit (14 R341). -/
  shadowStop : Bool := false
  overruns : Nat := 0
  firmware : Nat := 0
  /-- The 32-bit counter of its mailbox word, the level of its heartbeat wire and the core cycle of its last signal (14 R331). -/
  mailbox : Nat := 0
  wire : Bool := false
  beatAt : Nat := 0
  /-- Its commit word (14 R338). -/
  commitWord : Nat := 0
  /-- It has seen both heartbeat paths lost and not yet both back (14 R333). -/
  bothLost : Bool := false
  deriving DecidableEq, Repr

/-- A record of the command store (14 R335). -/
structure StoreRecord where
  jsn : Nat
  digest : Nat
  params : Bytes
  deriving DecidableEq, Repr

/-! ### Bus matrix and its memories (15_bus_matrix.md) -/

/-- The targets of the matrix (15 Table 15.2). -/
inductive BusTarget where
  | rom | localA | localB | retained | sram | flash | device | ports | datapath | hbm | engines
  deriving DecidableEq, Repr

/-- Where the first address of a transaction sends it (15 R351, R353 to R359). -/
inductive BusDest where
  /-- To a target, at an offset within it. -/
  | served (t : BusTarget) (offset : Nat)
  /-- A decode error. -/
  | nowhere
  /-- A write that the matrix drops under R329 or R360. -/
  | denied
  /-- Through the HBM window of a frozen controller. -/
  | frozen
  deriving DecidableEq, Repr

/-- A transaction outstanding at a master's port (15 R351, R362): the target that its first address was decoded to, how many
beats it has and how many have passed, and a write's beats as (byte strobes, word). -/
structure BusPending where
  write : Bool
  target : BusTarget
  offset : Nat
  beats : Nat
  done : Nat
  data : List (Nat × Nat)
  /-- The engines that a write of the debug access port requests to stop (08 R201). -/
  stops : List Nat
  /-- The core cycle of its grant (15 R362). -/
  since : Nat := 0
  deriving DecidableEq, Repr

/-- A request at a target's arbiter that has not yet been granted (15 R358, R362). -/
structure BusRequest where
  write : Bool
  addr : Nat
  data : List (Nat × Nat)
  stops : List Nat
  deriving DecidableEq, Repr

/-- The bus matrix (15 R350 to R363). -/
structure Bus where
  remapA : Bool := false
  remapB : Bool := false
  slices : Bool := true
  forceSlices : Bool := false
  /-- HBM_WIN of each master. -/
  windows : Tab Nat := []
  outstanding : Tab BusPending := []
  /-- Requests not yet granted, by master, and the master that each target's arbiter granted last (15 R358). -/
  requests : Tab BusRequest := []
  granted : Tab Nat := []
  /-- The data that the last read of each master returned. -/
  readData : Tab (List Nat) := []
  /-- Ports held idle until their master leaves reset (15 R362). -/
  portIdle : List Nat := []
  /-- Targets closed after a timeout, until PORST_N (15, under R360). -/
  closed : List BusTarget := []
  /-- Per master, by `BusCtr`. -/
  counters : Tab Nat := []
  retained : List Host.Cell := []
  sram : List Host.Cell := []
  localA : List Host.Cell := []
  localB : List Host.Cell := []
  deriving DecidableEq, Repr

/-! ### Power, clocks and shedding (17_power_and_sleep.md) -/

/-- Power states in code order (17 Table 17.8). -/
inductive PowerState where
  | active | idle | doze | sleep
  deriving DecidableEq, Repr

/-- The power controller (17 R381 to R400). -/
structure Power where
  state : PowerState := .sleep
  target : PowerState := .sleep
  busy : Bool := false
  /-- The deeper of the stages 1 and 2 in force, which end by themselves (17 R395). -/
  low : Nat := 0
  /-- The latched stages, deepest first. -/
  latched : List Nat := []
  block : Nat := 0
  wakeStep : Nat := 0
  attempt : Nat := 0
  wakeFailed : Bool := false
  slowXtal : Bool := false
  /-- The transition in progress was commanded. -/
  commanded : Bool := false
  /-- Handshake blocks that have agreed, latest first. -/
  agreed : List Nat := []
  tripped : Bool := false
  sag : Nat := 0
  worstRail : Nat := 0
  junction : Int := 0
  rails : Tab Nat := []
  transitions : Nat := 0
  refusals : Nat := 0
  wakeRepeats : Nat := 0
  wakeFailures : Nat := 0
  wakesIgnored : Nat := 0
  stageEntries : Tab Nat := []
  /-- Orbits closed at ingest in stage 3 or above: how many, the first and the last. -/
  shedOrbits : Nat := 0
  shedFirst : Option Nat := none
  shedLast : Option Nat := none
  /-- The control domain is powered and clocked (17 Table 1.2, Table 17.5). -/
  ctlOn : Bool := false
  /-- A rollback that waits for the HBM: the refusing block and its code (17 R386). -/
  rollback : Option (Nat × Nat) := none
  /-- The crystal is being tried (17 R383). -/
  xtalTrying : Bool := true
  /-- The HBM domain is powered and trained (19 R415 step 6, 07 R174). -/
  hbmTrained : Bool := false
  /-- The undoing of shedding stage 4 waits for the HBM's short training (07 R173, 17 R396). -/
  hbmResume : Bool := false
  /-- PWR_RETAIN_MASK, PWR_WAKE_MASK, PWR_SB_WAKE_ADDR, PWR_SLOW_SRC and PWR_WAKE_TB as latched at the last entry
  (17 R400). -/
  retainMask : Nat := 1
  wakeMask : Nat := 7
  sbWakeAddr : Nat := 0
  slowSrc : Nat := 0
  wakeTb : Nat := 0
  /-- The threshold keys as the last monitor sample took them (17 R400). -/
  thresholds : Tab Nat := []
  deriving DecidableEq, Repr

/-- The deepest shedding stage in force (17 R394, Table 17.8). -/
def Power.stage (p : Power) : Nat := p.latched.foldl max p.low

/-! ### Calliope (18_calliope_outputs.md) -/

/-- A channel configuration (18 Table 18.1). -/
structure CalConfig where
  mode : Nat := 0
  group : Nat := 0
  phaseInc : Nat := 0
  phase0 : Nat := 0
  amplitude : Nat := 0
  divider : Nat := 1
  deriving DecidableEq, Repr

/-- One Calliope channel (18 R402 to R410). -/
structure CalChannel where
  active : CalConfig := {}
  /-- The pending configuration and the core cycle of its acceptance. -/
  waiting : Option CalConfig := none
  waitingAt : Nat := 0
  phase : Nat := 0
  queue : List Int := []
  /-- The number of the DAC sample at which the next NCO sample, or queue sample, is due. -/
  due : Nat := 0
  forced : Bool := false
  /-- 0 none, 1 shedding, 2 handshake, 3 underrun, 4 parity. -/
  cause : Nat := 0
  code : Int := 0
  strobes : Nat := 0
  underruns : Nat := 0
  drops : Nat := 0
  deriving DecidableEq, Repr

/-- A strobe taken and not yet applied: its groups, the core cycle it was taken, and the configurations it makes active. -/
structure CalStrobe where
  groups : Nat
  cycle : Nat
  configs : Tab CalConfig
  deriving DecidableEq, Repr

/-- Calliope (18). -/
structure Calliope where
  channels : Tab CalChannel := []
  /-- In the order of their cycles. -/
  strobes : List CalStrobe := []
  groupStrobes : Tab Nat := []
  /-- The safe codes have been read at boot (18 R409). -/
  safeRead : Bool := false
  deriving DecidableEq, Repr

/-! ### Boot and flash (19_boot_and_image.md), the TAP (20 R443, R444) -/

/-- The boot sequencer, the flash and the image commands (19). -/
structure Boot where
  /-- The device is held in reset, by PORST_N or by a TAP instruction. -/
  porstLow : Bool := true
  /-- The PORST_N pin itself is low. -/
  porstPin : Bool := true
  pins : Nat := 0
  sel : Nat := 0
  copy : Nat := 0
  step : Nat := 0
  fallback : Bool := false
  /-- The boot is complete (19 Table 19.2 step 7). -/
  complete : Bool := false
  noImage : Bool := false
  hbmFailed : Bool := false
  flash : List Host.Cell := []
  flashSize : Nat := 2 ^ 26
  /-- Per copy: the write frontier of IMAGE_WRITE and whether IMAGE_VERIFY has passed since. -/
  frontier : Tab Nat := []
  verified : Tab Bool := []
  /-- The TAP's instruction register (20 R443). -/
  tapIr : Nat := 0x02
  tapHeld : Bool := false
  deriving DecidableEq, Repr

/-! ### Programmes (11_programmes.md) -/

/-- Programme slot states in code order (11 Table 11.1). -/
inductive SlotState where
  | empty | loading | loaded | valid | invalid | armed | inEffect | retiring
  deriving DecidableEq, Repr

/-- A channeliser path record (05 Table 5.5). -/
structure ProgPath where
  path : Nat
  flags : Nat
  slFirShift : Nat
  ncoInc : Nat
  ncoPhase0 : Nat
  slReqShift : Nat
  fbFirShift : Nat
  fbReqShift : Nat
  deriving DecidableEq, Repr

/-- A link record of the MESH section: segments are (path, slice) (11 R252). -/
structure ProgLink where
  hp : Nat
  peer : Nat
  tx : List (Nat × Nat)
  rx : List (Nat × Nat)
  deriving DecidableEq, Repr

/-- A partition region record (07 Table 7.2). -/
structure ProgRegion where
  kind : Nat
  depth : Nat
  reach : Nat
  base : Nat
  size : Nat
  deriving DecidableEq, Repr

/-- The CORRELATION section (11 R255). -/
structure ProgCorr where
  nInt : Nat
  k : Nat
  format : Nat
  stream : Nat
  continues : Bool
  cuts : List Nat
  placement : List Nat
  deriving DecidableEq, Repr

/-- A beam set record (11 Table 11.5, 10 Table 10.1). -/
structure BeamSet where
  set : Nat
  output : Nat
  beams : Nat
  beamBase : Nat
  powerFmt : Nat
  scale : Int
  vShift : Int
  groups : Nat
  m : Nat
  vStream : Nat
  pStream : Nat
  finishCh : Nat
  minPaths : Nat
  chFirst : Nat
  chCount : Nat
  q : Nat
  pInt : Nat
  weightBase0 : Nat
  weightBase1 : Nat
  stageBase0 : Nat
  stageBase1 : Nat
  order : List Nat
  deriving DecidableEq, Repr

/-- An egress stream record (11 R257). -/
structure ProgStream where
  hp : Nat
  dscp : Nat
  mac : Nat
  ip : Nat
  srcUdp : Nat
  dstUdp : Nat
  tag : Option Nat
  deriving DecidableEq, Repr

/-- A CODE entry: code and constant words and subscription tables of (group, ring) (11 R258). -/
structure ProgCode where
  engine : Nat
  code : List Nat
  consts : List Nat
  tables : List (List (Nat × Nat))
  deriving DecidableEq, Repr

/-- An entry of a read schedule (11 R259). -/
structure ReadEntry where
  chFirst : Nat
  chCount : Nat
  groupFirst : Nat
  groupCount : Nat
  deriving DecidableEq, Repr

/-- A handover entry (11 R260). -/
structure Handover where
  tile : Nat
  srcEngine : Nat
  srcSlot : Nat
  dstEngine : Nat
  dstSlot : Nat
  deriving DecidableEq, Repr

/-- An act record (11 Table 11.6). -/
structure Act where
  kind : Nat
  flags : Nat
  phase : Nat
  first : Nat
  count : Nat
  entry : Nat
  subscr : Nat
  beamSet : Nat
  ref : Nat
  dmaCh : Nat
  trigger : Nat
  deriving DecidableEq, Repr

/-- A delay-table entry (05 Table 5.3). -/
structure DelayEntry where
  coarse : Nat
  phase0 : Nat
  slope : Int
  rate : Int
  slopeRate : Int
  flags : Nat
  deriving DecidableEq, Repr

/-- A delay-table segment of a generation (05 R116). -/
structure DelaySegment where
  generation : Nat
  firstOrbit : Nat
  orbitCount : Nat
  sliceCount : Nat
  pathCount : Nat
  /-- Entries of orbits below this one came after stage B had begun them and are ignored (11 R277). -/
  validFrom : Nat
  /-- The entries of an image's own segment; those of a stored one lie in HBM. -/
  entries : List DelayEntry
  /-- Where a stored segment begins in the delay store, counted on from its first use (11 R247, R277). -/
  place : Option Nat := none
  deriving DecidableEq, Repr

/-- A programme as its validated image gives it (11 R250 to R261). -/
structure Programme where
  generation : Nat := 0
  fsHz : Nat := 1
  n : Nat := 0
  format : Nat := 0
  groups : Nat := 0
  imageSize : Nat := 0
  devices : Nat := 1
  device : Nat := 0
  owners : List Nat := []
  localPaths : List Nat := []
  links : List ProgLink := []
  slices : Nat := 1
  pA : Nat := 1
  prototype : Nat := 0
  binBase : Nat := 0
  c : Nat := 1
  slShift : Nat := 0
  fbShift : Nat := 0
  groupDelay : Nat := 0
  pB : Nat := 1
  precision : Nat := 0
  dcShift : Nat := 8
  hA : List Int := []
  hB : List Int := []
  paths : List ProgPath := []
  delay : Option DelaySegment := none
  shares : List Nat := []
  regions : List ProgRegion := []
  corr : Option ProgCorr := none
  beams : List BeamSet := []
  streams : List ProgStream := []
  codes : List ProgCode := []
  /-- Schedules with their byte offset within the section. -/
  schedules : List (Nat × List ReadEntry) := []
  /-- Chains as (FIRST, COUNT). -/
  chains : List (Nat × Nat) := []
  descriptors : List Bytes := []
  handovers : List Handover := []
  acts : List Act := []
  deriving DecidableEq, Repr

/-- One programme slot (11 R248 to R272). -/
structure ProgSlot where
  state : SlotState := .empty
  /-- The image bytes received, as disjoint rising (first, past the last) runs. -/
  received : List (Nat × Nat) := []
  imageSize : Option Nat := none
  generation : Nat := 0
  error : Nat := 0
  section_ : Nat := 0
  offset : Nat := 0
  detail : Nat := 0
  prog : Option Programme := none
  /-- The swap orbit n_s, from arming on. -/
  swapOrbit : Nat := 0
  /-- EG_PAYLOAD_MAX at ARM_PROGRAMME (04 R76). -/
  payloadMax : Nat := 0
  haltOrbit : Option Nat := none
  haltDump : Bool := false
  /-- It took effect with no programme in effect (11 R268). -/
  fresh : Bool := false
  /-- The number of its run: swaps are numbered from 1 (11 R270). -/
  run : Nat := 0
  /-- The last frame of the programme that the reader has begun (11 R262). -/
  lastFrame : Option Nat := none
  /-- The orbit at which a RETIRING programme stopped owning orbits (11 R270, R275). -/
  endOrbit : Option Nat := none
  /-- The last frame of the tail window of a RETIRING slot, and after a halt the next frame of it (11 R272, R275). -/
  tailEnd : Nat := 0
  tailAt : Nat := 0
  /-- A RETIRING slot left by HALT_PROGRAMME AT_ONCE. -/
  haltedAtOnce : Bool := false
  slip : Nat := 0
  lateActs : Nat := 0
  /-- The first orbit past every segment accepted for its generation (11 R277). -/
  segPast : Nat := 0
  deriving DecidableEq, Repr

/-- A delay segment being assembled (11 R277, 13 under Table 13.7). -/
structure SegAssembly where
  generation : Nat
  total : Nat
  received : List (Nat × Nat)
  data : List Host.Cell
  deriving DecidableEq, Repr

/-- What LOAD_PROGRAMME has channel 62 write (11 R249, R277): a chunk of a slot's image, or a whole delay segment of a generation. -/
inductive LoadJob where
  | image (slot offset : Nat) (data : Bytes)
  | segment (gen : Nat) (data : Bytes)
  deriving DecidableEq, Repr

/-- The programme slots, the delay store and the act boundary reached (11). -/
structure Programmes where
  slots : Tab ProgSlot := []
  /-- The load whose bytes channel 62 writes (12 R280). -/
  loading : Option LoadJob := none
  segments : List DelaySegment := []
  /-- Where the next segment goes in the delay store (11 R247, R277). -/
  storeNext : Nat := 0
  /-- The segments being assembled, one per generation. -/
  assemblies : List SegAssembly := []
  /-- The frame whose act boundary the reader reached last (11 R262). -/
  frame : Option Nat := none
  /-- Swaps so far: the number of the latest run (11 R270). -/
  runs : Nat := 0
  lateSegEntries : Nat := 0
  deriving DecidableEq, Repr

/-! ### The channeliser (05_channeliser.md) -/

/-- The stage A parameters that apply to a path (05 R121). -/
structure StageAPars where
  slices : Nat
  r : Nat
  pA : Nat
  binBase : Nat
  slShift : Nat
  hA : List Int
  record : Option ProgPath
  deriving DecidableEq, Repr

/-- The stage B parameters that apply to a path and slice (05 R121). -/
structure StageBPars where
  c : Nat
  pB : Nat
  prototype : Nat
  groupDelay : Nat
  fbShift : Nat
  precision : Nat
  dcShift : Nat
  hB : List Int
  record : Option ProgPath
  deriving DecidableEq, Repr

/-- Stage A of a local path and the channeliser counters of a path (05 R101 to R107, R124). -/
structure ChanPath where
  /-- The sample after the last block that stage A took, and the run of a programme that it belongs to: 0 before the first. -/
  nextA : Option Nat := none
  runA : Nat := 0
  /-- The parameters under which the history was made. -/
  parsA : Option StageAPars := none
  /-- The last P_A blocks of mixed samples, newest first, each with its validity. -/
  histA : List (List (Int × Int) × Bool) := []
  /-- The counters of R124 in its order. -/
  counters : Tab Nat := []
  /-- Per orbit, the requantiser clips of stage A, and of stage B over the owned slices, with CH_CLIP_LIMIT as the stage began
  the orbit (05 R125). -/
  clipsA : Tab (Nat × Nat) := []
  clipsB : Tab (Nat × Nat) := []
  deriving DecidableEq, Repr

/-- Stage B of a path and owned slice (05 R108 to R121). -/
structure FinePath where
  /-- The fine sample after the last that stage B computed, and the run of a programme that it belongs to: 0 before the first. -/
  next : Option Nat := none
  runB : Nat := 0
  /-- The parameters under which the history and the estimator were made. -/
  parsB : Option StageBPars := none
  /-- Slice samples placed and not yet consumed, by index: none is an invalid sample. -/
  samples : Tab (Option (Int × Int)) := []
  /-- The bytes of a sample that straddles two Midway frames, and the byte position that follows them. -/
  tail : Option (Nat × Bytes) := none
  /-- The last P_B blocks after the DC block, newest first, each with its validity. -/
  hist : List (List (Int × Int) × Bool) := []
  d : Int × Int := (0, 0)
  /-- The estimator was frozen at the last slice sample. -/
  frozen : Bool := false
  /-- The fine samples of the run being gathered, oldest first, each with its C channels. -/
  run : List (List (Int × Int)) := []
  /-- Every fine sample so far of the current validity block is valid. -/
  blockOk : Bool := true
  deriving DecidableEq, Repr

/-- What stage B took at the beginning of an orbit (05 R110; 07 R167, R180). -/
structure BegunOrbit where
  freeze : Bool
  /-- The capture range in force: ring channels and path ordinals, first and count. -/
  chFirst : Nat
  chCount : Nat
  pathFirst : Nat
  pathCount : Nat
  /-- HBM_CAP_POST_ORBITS. -/
  post : Nat
  deriving DecidableEq, Repr

/-- The channeliser (05). -/
structure Channeliser where
  paths : Tab ChanPath := []
  /-- By path * 256 + slice. -/
  fine : Tab FinePath := []
  /-- The newest orbit that stage B has begun since a programme took effect with none before it. -/
  begun : Option Nat := none
  begunTerms : Tab BegunOrbit := []
  deriving DecidableEq, Repr

/-! ### Corner-turn memory, capture and HBM (07_corner_turn_memory.md; 06 R143 to R146) -/

/-- A directory entry of the corner-turn ring (07 R161): 0 FREE, 1 FILLING, 2 HELD. -/
structure RingEntry where
  state : Nat := 0
  block : Nat := 0
  deriving DecidableEq, Repr

/-- A run of 64 fine samples of one ring channel in a write buffer (07 R160). -/
structure QueuedRun where
  /-- The generation of the programme that wrote it. -/
  gen : Nat
  path : Nat
  kappa : Nat
  block : Nat
  sub : Nat
  bytes : Bytes
  /-- The core cycle in which the capture writer queued it (07 R166). -/
  since : Nat := 0
  deriving DecidableEq, Repr

/-- A closed frame, as GET_STATE reports it (06 R146). -/
structure ClosedFrame where
  orbit : Nat
  stamp : Stamp
  missing : Nat
  byDeadline : Bool
  deriving DecidableEq, Repr

/-- The corner-turn memory's writer, directory and frames (07 R159 to R164; 06 R143 to R146). -/
structure CornerTurn where
  /-- The directory of each ring, by its base address in units of 32 KiB. -/
  dir : Tab (Tab RingEntry) := []
  wbuf : List QueuedRun := []
  /-- Per generation, runs accepted of a validity block of a path and slice, by
  (block * 2048 + path ordinal) * 256 + owned slice. -/
  accepted : Tab (Tab Nat) := []
  /-- Validity of the blocks that stage B has completed, by generation and the same key. -/
  valid : Tab (Tab Bool) := []
  /-- The oldest frame open at the owner. -/
  frame : Option Nat := none
  /-- The CLOSE markers delivered: by orbit, the half-ports and their INGEST_DEADLINE flags. -/
  closes : Tab (Tab Bool) := []
  /-- The last 16 frames closed, newest first. -/
  closed : List ClosedFrame := []
  /-- Frames whose outputs carry DEADLINE (06 R146). -/
  deadlineFrames : List Nat := []
  writeDrops : Nat := 0
  overruns : Nat := 0
  coarseLimits : Nat := 0
  stalls : Nat := 0
  deriving DecidableEq, Repr

/-- Where a capture lies and what it took: the programme's generation and N, the bytes of a sample, the ring's base and
positions, and the range in force (07 R159, R166). -/
structure CapLayout where
  gen : Nat
  n : Nat
  z : Nat
  base : Nat
  depth : Nat
  chFirst : Nat
  chCount : Nat
  pathFirst : Nat
  pathCount : Nat
  deriving DecidableEq, Repr

/-- A CAPTURE_DUMP (07 R167; 12 R280): the runs' layout, the half-port and destination, EG_PAYLOAD_MAX as it began, the orbits
held, the packets begun and those sent. -/
structure DumpJob where
  layout : CapLayout
  hp : Nat
  dest : Bytes
  payload : Nat
  orbits : List Nat
  next : Nat := 0
  sent : Nat := 0
  deriving DecidableEq, Repr

/-- The transient capture (07 R166, R167). -/
structure Capture where
  /-- 0 OFF, 1 ARMED, 2 TRIGGERED, 3 FROZEN (13 Table 13.8). -/
  state : Nat := 0
  /-- Why capture is held in OFF: 0 none, 1 a range beyond the programme, 2 a ring of another size. -/
  reason : Nat := 0
  trigger : Nat := 0
  /-- The last orbit that a triggered capture takes. -/
  last : Nat := 0
  stamp : Stamp := {}
  wbuf : List QueuedRun := []
  /-- Runs of an orbit written, dropped or missed. -/
  done : Tab Nat := []
  /-- The block that each ring position of the capture holds. -/
  ring : Tab Nat := []
  accepted : Tab Nat := []
  /-- The newest orbit all of whose blocks are written or dropped. -/
  newest : Option Nat := none
  oldest : Option Nat := none
  /-- The layout of the runs stored last. -/
  layout : Option CapLayout := none
  ignored : Nat := 0
  drops : Nat := 0
  /-- The dump that runs, or ran last. -/
  dump : Option DumpJob := none
  deriving DecidableEq, Repr

/-- Addresses from `first` up to but not including `past`, each holding a free value (log entry 27). -/
structure FreeRange where
  first : Nat
  past : Nat
  draw : Nat
  deriving DecidableEq, Repr

/-- The token bucket of a controller port: its contents, in tenths of a byte, in a core cycle (07 R170). -/
structure Bucket where
  tenths : Int
  cycle : Nat
  deriving DecidableEq, Repr

/-- An access in the queues of the controller: its place in the order of acceptance, where it goes, and whether it writes
(07 R171). -/
structure QueuedAccess where
  serial : Nat
  stack : Nat
  pc : Nat
  bank : Nat
  row : Nat
  write : Bool
  deriving DecidableEq, Repr

/-- The HBM and its controller (07 R156 to R179). -/
structure Hbm where
  mem : List Host.Cell := []
  /-- The model's own: what a programme swap left undefined and nothing has written since (07 R158; log entry 27). -/
  undef : List FreeRange := []
  /-- STATE of Table 7.5; reset OFF. -/
  state : Nat := 4
  kind : Nat := 0
  stack : Nat := 0
  pc : Nat := 0
  bank : Nat := 0
  port : Nat := 0
  row : Nat := 0
  column : Nat := 0
  syndrome : Nat := 0
  address : Nat := 0
  orbit : Nat := 0
  stamp : Stamp := {}
  held : List HeldRequest := []
  /-- Granules to be delivered marked bad, with the port of the failing request (07 R178). -/
  bad : List (Nat × Nat) := []
  corrected : Tab Nat := []
  /-- The stacks and bits that have had a corrected error, as 32 h + b (07 R175). -/
  correctedSeen : List Nat := []
  /-- Accesses accepted, those in the queues in order of arrival, and the banks in in-order mode, by (32 * stack + pseudo-channel) *
  48 + bank, with the access that put each there; then the entries into the mode by stack (07 R171, R172). -/
  accepted : Nat := 0
  queue : List QueuedAccess := []
  ordered : Tab Nat := []
  inOrder : Tab Nat := []
  /-- The token buckets of the ports that have drawn on one; every other bucket is full (07 R170; log entry 132). -/
  buckets : Tab Bucket := []
  /-- Per-bank refreshes, and the core cycle in which the next falls due, by (32 * stack + pseudo-channel) * 48 + bank; and the
  all-bank refreshes before self-refresh (07 R173). -/
  refreshes : Tab Nat := []
  refreshDue : Tab Nat := []
  allRefreshes : Nat := 0
  scrubNext : Nat := 0
  retimes : Tab Nat := []
  temps : Tab Int := []
  failedStacks : List Nat := []
  deriving DecidableEq, Repr

/-! ### Engines, the Carousel and the token board (08_correlation_engines.md, 09_accumulation.md) -/

/-- A scratchpad record: the bit patterns of re and im and the weight (08 R190). -/
structure Rec32 where
  re : Nat := 0
  im : Nat := 0
  weight : Nat := 0
  deriving DecidableEq, Repr

/-- A tile slot with its directory entry (08 R190, R191). -/
structure EngSlot where
  tile : Nat := 0
  chan : Nat := 0
  valid : Bool := false
  /-- BUSY_BY: 0 while BUSY is clear. -/
  busyBy : Nat := 0
  overflow : Bool := false
  poisoned : Bool := false
  replays : Nat := 0
  tokenWait : Bool := false
  records : Tab Rec32 := []
  deriving DecidableEq, Repr

/-- A stream of operand lines: the first line, the circular base and length, and the ring (08 R196, R199). -/
structure LineStream where
  first : Nat
  base : Nat
  len : Nat
  ring : Nat
  deriving DecidableEq, Repr

/-- A pass or beam pass that has been issued (08 R199, 10 R233). -/
structure ArrayPass where
  beam : Bool
  row : LineStream
  col : LineStream
  lines : Nat
  slot : Nat
  scale : Int
  real : Bool
  /-- Samples per operand word of the programme that issued it, and the beam set then bound to the engine (08 R182, 10 R244). -/
  spw : Nat := 1
  set : Option Nat := none
  /-- Its number in the engine's issue order. -/
  number : Nat
  replays : Nat := 0
  /-- BPASS: the weights that it copied as it started (10 R232). -/
  weights : List (Int × Int) := []
  /-- BPASS: the weights it took were read with a parity failure (10 R243). -/
  badWeights : Option Nat := none
  /-- The sums of its cells: re, im and weight (09 R212); for a BPASS of records 16 r + t (10 R233). -/
  sums : List (Int × Int × Nat) := []
  deriving DecidableEq, Repr

/-- An instruction that stalls, with its fields (08 R192, R198). -/
inductive EngOp where
  | waitf (k n : Nat)
  | psync
  | tacq (slot gt gc : Nat) (h : Bool)
  | trel (slot : Nat) (bad : Option Nat)
  | tclr (slot : Nat)
  | pass (kr kc slot gs : Nat) (real ir ic : Bool)
  | bload (k : Nat) (iw : Bool) (bad : Option Nat)
  | bpass (kc slot : Nat) (ic : Bool)
  | dkick (ch : Nat)
  deriving DecidableEq, Repr

/-- A feed ring's write position, as an offset in the ring, and fill (08 R188). -/
structure FeedRing where
  wpos : Nat := 0
  fill : Nat := 0
  deriving DecidableEq, Repr

/-- A read block's name: the frame and its programme's generation, the path group, ring channel and block (07 R164). -/
structure BlockId where
  gen : Nat
  frame : Nat
  group : Nat
  kappa : Nat
  r : Nat
  deriving DecidableEq, Repr

/-- A block at the Carousel's root (08 R187). -/
structure CarouselBlock where
  id : BlockId
  /-- The validity vector of all its granules. -/
  vector : Nat
  lines : List (List Nat)
  deriving DecidableEq, Repr

/-- An act due on an engine; with no act, the programme switch of 11 R270. -/
structure EngDue where
  gen : Nat
  frame : Nat
  act : Option Nat
  /-- It fell due while the engine was still in an act of an earlier boundary, at this core cycle. -/
  late : Option Nat
  deriving DecidableEq, Repr

/-- One correlation engine (08, 09). -/
structure Engine where
  /-- It holds a programme's code. -/
  loaded : Bool := false
  gen : Nat := 0
  waito : Bool := false
  fault : Bool := false
  stopped : Bool := false
  /-- Stop requests of HALT_PROGRAMME and of the debug access port (08 R201). -/
  halted : Bool := false
  debug : Bool := false
  g : Tab Nat := []
  a : Tab Nat := []
  cb : Tab Nat := []
  cl : Tab Nat := []
  lc : Tab Nat := []
  pc : Nat := 0
  /-- Delay slots still to execute and the address after them (08 R200). -/
  delay : Option (Nat × Nat) := none
  /-- The bodies of the REPEAT levels active: first and last address (08 R200). -/
  loops : Tab (Nat × Nat) := []
  /-- The last instruction issued to the array or stalled (08 R201). -/
  syncPoint : Bool := false
  /-- The stalled instruction, the core cycle of its stall, its kind (2 feed, 3 token, 4 BUSY, 5 full queue) and whether
  EV_ENG_SUMMARY has been told that it is long. -/
  stall : Option EngOp := none
  stallSince : Nat := 0
  stallKind : Nat := 0
  stallLong : Bool := false
  code : List Nat := []
  consts : Tab Nat := []
  tables : List (List (Nat × Nat)) := []
  act : Option EngDue := none
  due : List EngDue := []
  subscr : List (Nat × Nat) := []
  beamSet : Option Nat := none
  rings : Tab FeedRing := []
  /-- The block whose first line is the given operand line. -/
  blocks : Tab CarouselBlock := []
  lines : Tab (List Nat) := []
  valid : Tab Nat := []
  /-- Operand lines, and from 4,096 on validity vectors, with a parity failure: the bit, and whether in transit on the Carousel
  (08 R186). -/
  bad : Tab (Nat × Bool) := []
  issued : Nat := 0
  /-- Passes that have finished streaming. -/
  streamed : Nat := 0
  /-- FREEFs that wait for passes: the pass number, ring and lines (08 Table 8.8). -/
  frees : List (Nat × Nat × Nat) := []
  queue : List ArrayPass := []
  stream : Option ArrayPass := none
  starved : Bool := false
  replaying : Bool := false
  streamSince : Nat := 0
  writeBack : List ArrayPass := []
  lastSlot : Nat := 0
  weights : List (Int × Int) := []
  badWeights : Option Nat := none
  slots : Tab EngSlot := []
  cause : Nat := 0
  /-- The counters of R206 in its order. -/
  counters : Tab Nat := []
  /-- Store addresses refetched in the current act: programme store, or constant store from 4,096 on (08 R203). -/
  refetched : List Nat := []
  deriving DecidableEq, Repr

/-- A token of the board: 0 NONE, 1 RELEASED, 2 DELIVERED, and the low 8 bits of the generation (08 R194). -/
structure Token where
  state : Nat := 0
  gen : Nat := 0
  deriving DecidableEq, Repr

/-- A read schedule in progress or queued at the reader (11 R259, R262). -/
structure ReadRun where
  gen : Nat
  frame : Nat
  act : Nat
  entries : List ReadEntry
  /-- The position in the first entry: channel, block and group, as offsets. -/
  ch : Nat := 0
  r : Nat := 0
  g : Nat := 0
  deriving DecidableEq, Repr

/-- The corner-turn reader and the Carousel's root (07 R164, 08 R187). -/
structure Carousel where
  runs : List ReadRun := []
  root : Option CarouselBlock := none
  /-- The core cycle up to which the wait of the block at the root for room is counted, and per engine without room the cycle from
  which the block has waited for it (08 R189). -/
  heldSince : Option Nat := none
  heldBy : Tab Nat := []
  tokens : Tab Token := []
  deriving DecidableEq, Repr

/-! ### Beams (10_beamforming.md) -/

/-- Finishes of a beam slot: the frame, the channel and how many, which is the read block of the next (10 R236). -/
structure SlotFinish where
  frame : Nat := 0
  blocks : Nat := 0
  deriving DecidableEq, Repr

/-- A staging buffer in use (10 R239): the orbit that it holds, the packets that its drain sends, and its finish transfers, due
and done. -/
structure StageHold where
  orbit : Nat
  packets : Nat
  need : Nat
  done : Nat
  deriving DecidableEq, Repr

/-- A power accumulator: the Stokes sums, the samples added, and whether one was poisoned or missing (10 R238). -/
structure PowerSum where
  sums : List Nat := []
  count : Nat := 0
  poisoned : Bool := false
  missing : Bool := false
  deriving DecidableEq, Repr

/-- The state of a beam set (10 R231, R239, R244). -/
structure BeamState where
  /-- The counters of R244 in its order. -/
  counters : Tab Nat := []
  /-- The last orbit whose weights were read to completion. -/
  lastRead : Option Nat := none
  /-- Orbits whose weight header was stale, and orbits with a weight granule delivered bad. -/
  stale : List Nat := []
  bad : List Nat := []
  /-- Voltage clips of an orbit, with BEAM_CLIP_LIMIT and BEAM_WEIGHT_CHECK as it began. -/
  clips : Tab Nat := []
  /-- The two settings as each orbit whose beams are formed took them. -/
  terms : Tab (Nat × Nat) := []
  /-- Per parity: what the staging buffer holds. -/
  staging : Tab StageHold := []
  /-- Packets that have left the staging buffer, at 64 times the orbit plus the egress stream. -/
  sent : Tab Nat := []
  /-- Per orbit: weight bytes read. -/
  weightBytes : Tab Nat := []
  /-- The staged voltage samples that are not present: by HBM address, 1 missing and 2 poisoned (10 R237). -/
  marks : Tab Nat := []
  /-- The staging buffer in use. -/
  inUse : Nat := 0
  deriving DecidableEq, Repr

/-! ### DMA (12_dma.md) -/

/-- A burst in the burst buffer (12 R286): its bytes as read and its place in the descriptor. -/
structure DmaBurst where
  offset : Nat
  length : Nat
  data : Bytes
  damaged : Bool
  deriving DecidableEq, Repr

/-- A start of a chain (11 R262; 12 R280): the programme, frame, first descriptor and trigger. -/
structure DmaStart where
  gen : Nat
  frame : Nat
  act : Nat
  first : Nat
  trigger : Bool
  /-- The descriptors that the device builds: of a HANDOVER act, and of the internal channels. -/
  built : List Bytes
  /-- It runs a CUT dump (11 R276). -/
  cut : Bool
  /-- The data that the device's own descriptors carry INLINE (12 R280). -/
  data : Bytes := []
  deriving DecidableEq, Repr

/-- One DMA channel (12 R280 to R299). -/
structure DmaChannel where
  /-- STATE of Table 12.6. -/
  state : Nat := 0
  /-- The start that the chain runs under; none for a host chain. -/
  start : Option DmaStart := none
  /-- The start by an act was not yet possible: waiting starts, in order. -/
  waiting : List DmaStart := []
  current : Nat := 0
  desc : Option Bytes := none
  /-- Bytes read and bytes written of the descriptor held. -/
  readBytes : Nat := 0
  written : Nat := 0
  inFlight : List DmaBurst := []
  endLatched : Bool := false
  reqCount : Nat := 0
  level : Bool := false
  /-- A stop waits for the descriptor boundary (12 R281, R294). -/
  stopping : Bool := false
  cut : Bool := false
  damaged : Bool := false
  hbmBad : Bool := false
  linkExpect : Nat := 0
  cause : Nat := 0
  counters : Tab Nat := []
  /-- The earliest core cycle of the next burst (12 R291). -/
  nextAt : Nat := 0
  /-- The core cycle from which the next burst waits for nothing but the limiter and its turn. -/
  readyAt : Nat := 0
  /-- The core cycle since which a burst waits, on what (0 BUSY, 1 a token, 2 a staging buffer, 3 an orbit's finishes), and
  whether a long wait was told. -/
  waitSince : Option Nat := none
  waitKind : Nat := 0
  waitLong : Bool := false
  /-- The slots, by engine and number, whose BUSY the wait has met (08 R192). -/
  waitSlots : List (Nat × Nat) := []
  deriving DecidableEq, Repr

/-- The DMA engine (12). -/
structure Dma where
  channels : Tab DmaChannel := []
  /-- The channel last granted, by PRIO (12 R287). -/
  granted : Tab Nat := []
  /-- The channels of the bursts in flight, in the order of their reads (12 R286). -/
  order : List Nat := []
  /-- The inline data of the DMA_SUBMIT that wrote each host descriptor (12 Table 12.2). -/
  inline : Tab Bytes := []
  deriving DecidableEq, Repr

/-! ### Epochs and the baton block (14 Tables 14.2 and 14.5) -/

/-- The firmware state that an epoch copies: the settings layers, the slot states with their load progress, the time bases and
alarms, the inline data of the host descriptors, the power and shedding state and the pending commands (14 R337). -/
structure EpochBody where
  set : SettingLayers := {}
  slots : Tab ProgSlot := []
  assemblies : List SegAssembly := []
  tbs : Tab TimeBase := []
  alarms : Tab Alarm := []
  hostTables : Tab Bytes := []
  pwr : Power := {}
  pending : List PendingCommand := []
  deriving DecidableEq, Repr

/-- An epoch buffer (14 Table 14.5, R338): whether it is complete, whether MAGIC stands in it, and BOOT_ID as it was written. -/
structure EpochBuffer where
  complete : Bool := false
  magic : Bool := false
  boot : Nat := 0
  number : Nat := 0
  jsn : Nat := 0
  writer : Nat := 0
  body : EpochBody := {}
  deriving DecidableEq, Repr

/-- A planned switchover in progress (14 R344, R347). -/
structure Switchover where
  epoch : Nat
  committed : Bool
  reclaim : Bool
  deriving DecidableEq, Repr

/-- The Ringmasters and the baton block (14 Table 14.2, R335). -/
structure Control where
  units : Tab CuUnit := []
  holder : Nat := 0
  held : Bool := false
  passing : Bool := false
  passes : Nat := 0
  effectJsn : Nat := 0
  commitAddr : Nat := 0
  commitData : Nat := 0
  commitJsnHi : Nat := 0
  store : List StoreRecord := []
  storeWaits : Nat := 0
  /-- The highest JSN of a command store record that has been overwritten. -/
  storeLost : Nat := 0
  buffers : Tab EpochBuffer := []
  /-- The shadow state of each unit, as its last commit loaded it (14 R338). -/
  shadows : Tab EpochBody := []
  /-- Words of the journal retention group that the control bus has written since the holder last wrote there, by word offset
  (14 R334). -/
  group0 : Tab Nat := []
  nextEpoch : Nat := 1
  /-- The epoch being copied, whose buffer has no MAGIC yet (14 R337). -/
  copying : Option Nat := none
  switchover : Option Switchover := none
  switchovers : Nat := 0
  noHolder : Bool := false
  deriving DecidableEq, Repr

/-! ### The whole state -/

/-- The state of the GL-2048. -/
structure State where
  fuses : Fuses := {}
  set : SettingLayers := {}
  /-- The core cycle counter (18 R401). -/
  cycle : Nat := 0
  /-- The model's own counter of free values drawn, not the spec's (log entry 5). -/
  free : Nat := 0
  tbs : Tab TimeBase := []
  alarms : Tab Alarm := []
  orb : Orbits := {}
  ev : Events := {}
  hps : Tab HalfPort := []
  /-- Lane references lost (03 R53). -/
  refsLost : List Nat := []
  mp : MgmtPort := {}
  ing : Ingest := {}
  cmd : Commands := {}
  cu : Control := {}
  bus : Bus := {}
  pwr : Power := {}
  cal : Calliope := {}
  boot : Boot := {}
  prg : Programmes := {}
  ch : Channeliser := {}
  ct : CornerTurn := {}
  cap : Capture := {}
  hbm : Hbm := {}
  engines : Tab Engine := []
  car : Carousel := {}
  beams : Tab BeamState := []
  /-- By engine * 64 + slot. -/
  finishes : Tab SlotFinish := []
  /-- By (set * 1024 + beam) * 65536 + ring channel (log entry 24). -/
  powers : Tab PowerSum := []
  /-- The counters of 04 R96 by stream: packets and bytes sent, packets dropped. -/
  streams : Tab (Tab Nat) := []
  dma : Dma := {}
  /-- The frames sent, newest first: the port (255 the Management Port) and the bytes. -/
  sent : List (Nat × Bytes) := []
  /-- The commands that are waiting, first in, first out. -/
  pending : List Instr := []
  deriving DecidableEq, Repr

/-- Why the block stops with a fault: nothing the spec describes stops it, every error being a reply, an event, a cause or
a counter, so the type has no constructor (log entry 7). -/
inductive Fault where
  deriving DecidableEq, Repr

/-- Why a command has no next state. -/
inductive Refusal where
  /-- Dispatch raises it for a command that the model has not reached; safe. -/
  | notModelled (mnemonic : String)
  deriving DecidableEq, Repr

/-- The machine right after reset: every field at its reset value. -/
def State.reset : State := {}

end Sys2Proof.Machine
end

