-- ==== Sys2Proof/Machine/Ops.lean ====
section
/-! DEFINITION. The named operations over tables, byte memories and bit fields (00_scope.md R4, R5; 07 R156; 15 R354). -/

namespace Sys2Proof.Machine

/-! ### Tables -/

/-- The entry of index `k`, or the default `d`. -/
def tget {α : Type} (t : Tab α) (k : Nat) (d : α) : α :=
  match t with
  | [] => d
  | (k', v) :: t => if k' = k then v else tget t k d

/-- Whether index `k` has an entry. -/
def thas {α : Type} (t : Tab α) (k : Nat) : Bool := t.any fun e => e.1 == k

/-- The entry of index `k`, if it has one. -/
def tfind {α : Type} (t : Tab α) (k : Nat) : Option α :=
  match t with
  | [] => none
  | (k', v) :: t => if k' = k then some v else tfind t k

/-- Writes the entry of index `k`. -/
def tput {α : Type} (t : Tab α) (k : Nat) (v : α) : Tab α :=
  match t with
  | [] => [(k, v)]
  | (k', v') :: t =>
    if k' = k then (k, v) :: t else if k < k' then (k, v) :: (k', v') :: t else (k', v') :: tput t k v

/-- Removes the entry of index `k`. -/
def tdel {α : Type} (t : Tab α) (k : Nat) : Tab α := t.filter fun e => e.1 != k

/-- Changes the entry of index `k`. -/
def tmod {α : Type} (t : Tab α) (k : Nat) (d : α) (f : α → α) : Tab α := tput t k (f (tget t k d))

/-! ### Byte memories: canonical lists of (address, byte) -/

/-- The byte at address `a`; an unlisted address reads as `d` (log entries 2 and 3). -/
def memGet (d : Byte) (m : List Host.Cell) (a : Nat) : Byte := tget m a d

/-- Writes one byte and keeps the canonical form: addresses strictly rising, no entry equal to `d`. -/
def memPut (d : Byte) (m : List Host.Cell) (a : Nat) (b : Byte) : List Host.Cell :=
  match m with
  | [] => if b = d then [] else [(a, b)]
  | (a', b') :: m =>
    if a' = a then (if b = d then m else (a, b) :: m)
    else if a < a' then (if b = d then (a', b') :: m else (a, b) :: (a', b') :: m)
    else (a', b') :: memPut d m a b

/-- Reads `n` bytes from address `a` upward. -/
def memRead (d : Byte) (m : List Host.Cell) (a n : Nat) : Bytes := (List.range n).map fun i => memGet d m (a + i)

/-- Writes a byte string from address `a` upward. -/
def memWrite (d : Byte) (m : List Host.Cell) (a : Nat) (bs : Bytes) : List Host.Cell :=
  match bs with
  | [] => m
  | b :: bs => memWrite d (memPut d m a b) (a + 1) bs

/-- The canonical form of a byte memory whose unlisted addresses read as `d`. -/
def memWf (d : Byte) (m : List Host.Cell) : Bool :=
  match m with
  | [] => true
  | [(_, b)] => b != d
  | (a, b) :: (a', b') :: m => b != d && decide (a < a') && memWf d ((a', b') :: m)

/-! ### Numbers and bytes, most significant byte first -/

/-- The `n` low bytes of `v`, most significant first. -/
def be (n v : Nat) : Bytes :=
  match n with
  | 0 => []
  | n + 1 => BitVec.ofNat 8 (v / 256 ^ n) :: be n v

/-- The number that a byte string spells. -/
def ofBe (bs : Bytes) : Nat := bs.foldl (fun a b => a * 256 + b.toNat) 0

/-- The `len` bytes at offset `off`. -/
def slice (bs : Bytes) (off len : Nat) : Bytes := (bs.drop off).take len

/-- The field of `len` bytes at offset `off`. -/
def fld (bs : Bytes) (off len : Nat) : Nat := ofBe (slice bs off len)

/-- The two's complement reading of a `w`-bit field. -/
def toSigned (w v : Nat) : Int := if v % 2 ^ w < 2 ^ (w - 1) then (v % 2 ^ w : Nat) else ((v % 2 ^ w : Nat) : Int) - (2 ^ w : Nat)

/-- The `w`-bit two's complement field of an integer. -/
def ofSigned (w : Nat) (i : Int) : Nat := (i % ((2 ^ w : Nat) : Int)).toNat

/-- Bits `hi` down to `lo` of a number. -/
def bits (v hi lo : Nat) : Nat := v / 2 ^ lo % 2 ^ (hi + 1 - lo)

/-- Bit `i` of a number. -/
def bit (v i : Nat) : Bool := v.testBit i

/-- One as a number, for a flag. -/
def b2n (b : Bool) : Nat := if b then 1 else 0

/-- `v` with bit `i` set. -/
def setBit (v i : Nat) : Nat := v ||| 2 ^ i

/-- Zero padding to `n` bytes. -/
def padTo (n : Nat) (bs : Bytes) : Bytes := bs ++ List.replicate (n - bs.length) 0

/-- The ASCII bytes of a name. -/
def ascii (s : String) : Bytes := s.toList.map fun c => BitVec.ofNat 8 c.toNat

/-- Counts one more, saturating at the top of a `w`-bit counter. -/
def satInc (w n : Nat) : Nat := if n + 1 < 2 ^ w then n + 1 else 2 ^ w - 1

/-- Adds to a counter, saturating at the top of `w` bits. -/
def satAdd (w n k : Nat) : Nat := if n + k < 2 ^ w then n + k else 2 ^ w - 1

/-- Sum of a function over a list. -/
def sumOf {α : Type} (f : α → Nat) (l : List α) : Nat := (l.map f).foldl (· + ·) 0

/-- Removes the first element that fits. -/
def dropFirst {α : Type} (p : α → Bool) : List α → List α
  | [] => []
  | x :: xs => if p x then xs else x :: dropFirst p xs

/-- Whether the elements of a list all differ. -/
def allDiffer : List Nat → Bool
  | [] => true
  | x :: xs => !xs.contains x && allDiffer xs

/-- The rounding of a quotient where the spec gives none: the floor or the next integer, as the free constant
`Config.roundUp` says (log entry 8). -/
def freeDiv (n : Int) (d : Nat) : Int :=
  if n % (d : Int) = 0 then n / (d : Int) else if Config.roundUp n d then n / (d : Int) + 1 else n / (d : Int)

/-- The next integer at or above a quotient. -/
def ceilDiv (n d : Nat) : Nat := if d = 0 then 0 else (n + d - 1) / d

/-! ### The two checks of the Numin packet (13_command_protocol.md R303) -/

/-- One byte of a CRC-16 with polynomial 0x1021, not reflected. -/
def crc16Byte (c : BitVec 16) (b : Byte) : BitVec 16 :=
  (List.range 8).foldl (fun c _ => if c.msb then (c <<< 1) ^^^ 0x1021#16 else c <<< 1) (c ^^^ (b.zeroExtend 16 <<< 8))

/-- CRC-16, initial value 0xFFFF, no final XOR. -/
def crc16 (bs : Bytes) : Nat := (bs.foldl crc16Byte 0xFFFF#16).toNat

/-- One byte of a reflected CRC-32 whose reflected polynomial is `p`. -/
def crc32Byte (p : Word) (c : Word) (b : Byte) : Word :=
  (List.range 8).foldl (fun c _ => if c.getLsbD 0 then (c >>> 1) ^^^ p else c >>> 1) (c ^^^ b.zeroExtend 32)

/-- CRC-32C (polynomial 0x1EDC6F41 reflected), initial value and final XOR 0xFFFFFFFF: the Numin packet check. -/
def crc32c (bs : Bytes) : Nat := ((bs.foldl (crc32Byte 0x82F63B78#32) 0xFFFFFFFF#32) ^^^ 0xFFFFFFFF#32).toNat

end Sys2Proof.Machine
end

