-- ==== Sys2Proof/Machine/Float32.lean ====
section
/-! DEFINITION. The binary32 primitives of accumulation (09_accumulation.md R208 to R211), on bit patterns. Every finite
binary32 value is a whole number of units of 2^-149. -/

namespace Sys2Proof.Machine

/-- The poison NaN (09 R227). -/
def nan32 : Nat := 0x7FC00000
/-- +infinity. -/
def inf32 : Nat := 0x7F800000
/-- -infinity. -/
def ninf32 : Nat := 0xFF800000

/-- Whether a pattern is a NaN. -/
def isNan32 (x : Nat) : Bool := decide (x % 2 ^ 31 > inf32)
/-- Whether a pattern is an infinity. -/
def isInf32 (x : Nat) : Bool := x % 2 ^ 31 == inf32
/-- The sign bit. -/
def neg32 (x : Nat) : Bool := bit x 31

/-- The magnitude of a finite pattern in units of 2^-149. -/
def mag32 (x : Nat) : Nat :=
  let e := bits x 30 23
  let f := bits x 22 0
  if e = 0 then f else (2 ^ 23 + f) * 2 ^ (e - 1)

/-- A finite pattern's value in units of 2^-149. -/
def units32 (x : Nat) : Int := if neg32 x then -(mag32 x : Int) else (mag32 x : Int)

/-- The pattern of a magnitude in units of 2^-149, truncated; 2^128 and above give infinity. -/
def pack32 (m : Nat) : Nat :=
  if 2 ^ 138 * 2 ^ 139 ≤ m then inf32
  else
    let b := Nat.log2 m
    if b ≤ 23 then m else (b - 22) * 2 ^ 23 + (m / 2 ^ (b - 23) - 2 ^ 23)

/-- round32 of a value in units of 2^-149 (09 R208). -/
def round32 (n : Int) : Nat := if n < 0 then pack32 n.natAbs + 2 ^ 31 else pack32 n.natAbs

/-- round32 of a value in units of 2^-149 / 2^k: digits below a unit truncate first, which changes no result. -/
def round32Div (n : Int) (k : Nat) : Nat := round32 (Int.tdiv n ((2 ^ k : Nat) : Int))

/-- conv32 (09 R209), for s from -149 on. -/
def conv32 (b s : Int) : Nat := round32 (b * ((2 ^ (s + 149).toNat : Nat) : Int))

/-- add32 (09 R210). -/
def add32 (a b : Nat) : Nat :=
  if isNan32 a ∨ isNan32 b then nan32
  else if isInf32 a ∧ isInf32 b ∧ neg32 a ≠ neg32 b then inf32
  else if isInf32 a then a
  else if isInf32 b then b
  else round32 (units32 a + units32 b)

/-- The infinity that a component becomes beside an infinite one: a component of 0 becomes +infinity (09 R211). -/
def spreadTo (x : Nat) : Nat := if isInf32 x then x else if units32 x < 0 then ninf32 else inf32

end Sys2Proof.Machine
end

