-- ==== Sys2Proof/Machine/Settings.lean ====
section
/-! DEFINITION. The settings: every key of every settings table with its range and factory value, the three layers and
the effective value (00_scope.md R9 to R11, 13 R318). A value is kept as its 64-bit VALUE field, sign-extended for a signed
setting (13, under Table 13.6). -/

namespace Sys2Proof.Machine

/-- What a settings table says of a key: its range, its factory value and whether it is signed. -/
structure KeyInfo where
  lo : Int
  hi : Int
  factory : Int

/-- The number of half-ports of the variant (00 Table 0.1). -/
def halfPortsOf (v : Variant) : Nat := match v with | .gl2048 => 128 | .gl1024 => 64

/-- The number of engines of the variant (00 Table 0.1). -/
def enginesOf (v : Variant) : Nat := match v with | .gl2048 => 512 | .gl1024 => 256

/-- The number of HBM stacks of the variant (00 Table 0.1). -/
def stacksOf (v : Variant) : Nat := match v with | .gl2048 => 4 | .gl1024 => 2

/-- The keys of one time base, item 0 to F (02 Table 2.6). -/
def tbKeyInfo (item : Nat) : Option KeyInfo :=
  match item with
  | 0x0 => some ⟨0, 3, 0⟩
  | 0x1 => some ⟨0, 127, 0⟩
  | 0x2 => some ⟨0, 239, 0⟩
  | 0x3 => some ⟨0, 1, 0⟩
  | 0x4 => some ⟨-7, 4, 0⟩
  | 0x5 => some ⟨1, 1000000000, 1000000⟩
  | 0x6 => some ⟨1, 255, 4⟩
  | 0x7 => some ⟨100, 60000, 3000⟩
  | 0x8 => some ⟨0, 1, 1⟩
  | 0x9 => some ⟨1, 1000000, 100⟩
  | 0xA => some ⟨1, 500000, 100000⟩
  | 0xB => some ⟨-1000000, 1000000, 0⟩
  | 0xC => some ⟨0, 2, 0⟩
  | 0xD => some ⟨1, 999999, 100000⟩
  | 0xE => some ⟨0, 15, 4⟩
  | 0xF => some ⟨0, 2 ^ 48 - 1, 0⟩
  | _ => none

/-- The single keys of groups 01 to 04 (13 Table 13.15, 03 Table 3.8, 04 Table 4.1, 06 Table 6.6). -/
def linkKeyInfo (mac : Nat) (key : Nat) : Option KeyInfo :=
  match key with
  | 0x0120 => some ⟨0x08, 0x77, 0x4E⟩
  | 0x0121 => some ⟨0, 1, 0⟩
  | 0x0122 => some ⟨0, 1, 1⟩
  | 0x0280 => some ⟨0, 255, 64⟩
  | 0x0281 => some ⟨0, 255, 24⟩
  | 0x0282 => some ⟨1, 10000, 10⟩
  | 0x0283 => some ⟨10, 10000, 100⟩
  | 0x0284 => some ⟨1, 255, 16⟩
  | 0x0285 => some ⟨1, 60000, 1000⟩
  | 0x0286 => some ⟨10, 30, 20⟩
  | 0x0290 => some ⟨0, 1, 0⟩
  | 0x0291 => some ⟨0, 1, 1⟩
  | 0x0292 => some ⟨0, 1, 0⟩
  | 0x0293 => some ⟨0, 1, 0⟩
  | 0x0294 => some ⟨0, 15, 0⟩
  | 0x0295 => some ⟨0, 31, 8⟩
  | 0x0300 => some ⟨0, 2 ^ 32 - 1, mac / 2 ^ 16⟩
  | 0x0301 => some ⟨0, 0xFF00, mac % 2 ^ 16 / 256 * 256⟩
  | 0x0302 => some ⟨0, 2 ^ 32 - 1, 0⟩
  | 0x0303 => some ⟨1, 65535, 7148⟩
  | 0x0304 => some ⟨1, 65535, 7150⟩
  | 0x0305 => some ⟨1, 255, 64⟩
  | 0x0306 => some ⟨0, 60000, 100⟩
  | 0x0307 => some ⟨0, 65535, 1000⟩
  | 0x0308 => some ⟨512, 9120, 8192⟩
  | 0x0310 => some ⟨0, 2 ^ 32 - 1, 0xC0A80702⟩
  | 0x0320 => some ⟨0, 2 ^ 32 - 1, 0⟩
  | 0x0321 => some ⟨0, 2 ^ 32 - 1, 0⟩
  | 0x0322 => some ⟨0, 2 ^ 32 - 1, 0⟩
  | 0x0323 => some ⟨0, 2 ^ 32 - 1, 0⟩
  | 0x0400 => some ⟨0, 31, 0⟩
  | 0x0401 => some ⟨0, 65535, 0⟩
  | 0x0402 => some ⟨1, 10000, 20⟩
  | 0x0403 => some ⟨1, 255, 8⟩
  | 0x0404 => some ⟨0, 65535, 100⟩
  | 0x0405 => some ⟨0, 1000000, 1000⟩
  | 0x0406 => some ⟨1, 60000, 100⟩
  | 0x0407 => some ⟨0, 1, 1⟩
  | 0x0408 => some ⟨1, 1000000, 10⟩
  | 0x0409 => some ⟨1, 1000, 20⟩
  | _ => none

/-- The single keys of groups 05 to 0A (02 Table 2.6, 05 Table 5.6, 07 Table 7.7, 08 Table 8.12, 10 Table 10.4,
12 Table 12.8). -/
def dataKeyInfo (key : Nat) : Option KeyInfo :=
  match key with
  | 0x0540 => some ⟨0, 268435456, 1048576⟩
  | 0x0541 => some ⟨0, 2 ^ 48 - 1, 0⟩
  | 0x0542 => some ⟨0, 999999999, 0⟩
  | 0x0543 => some ⟨0, 1000000, 2000⟩
  | 0x0544 => some ⟨0, 3, 1⟩
  | 0x0600 => some ⟨0, 1, 0⟩
  | 0x0601 => some ⟨1, 2 ^ 32 - 1, 65536⟩
  | 0x0700 => some ⟨0, 1, 1⟩
  | 0x0701 => some ⟨600, 86400, 3600⟩
  | 0x0702 => some ⟨60, 105, 95⟩
  | 0x0703 => some ⟨0, 1, 0⟩
  | 0x0704 => some ⟨0, 256, 0⟩
  | 0x0705 => some ⟨0, 255, 1⟩
  | 0x0706 => some ⟨0, 65535, 0⟩
  | 0x0707 => some ⟨0, 65536, 0⟩
  | 0x0708 => some ⟨0, 2047, 0⟩
  | 0x0709 => some ⟨0, 2048, 0⟩
  | 0x070A => some ⟨1, 16, 2⟩
  | 0x070B => some ⟨4, 1024, 64⟩
  | 0x070C => some ⟨1, 1000, 1⟩
  | 0x0800 => some ⟨1, 1000000, 1000⟩
  | 0x0801 => some ⟨0, 1, 1⟩
  | 0x0900 => some ⟨1, 2 ^ 32 - 1, 65536⟩
  | 0x0901 => some ⟨0, 1, 1⟩
  | 0x0A00 => some ⟨1, 1000000, 1000⟩
  | 0x0A01 => some ⟨1, 64, 8⟩
  | _ => none

/-- The single keys of groups 0B to 0E (17 Table 17.10, 18 Table 18.7, 16 Table 16.7, 14 Table 14.9). -/
def controlKeyInfo (key : Nat) : Option KeyInfo :=
  match key with
  | 0x0B00 => some ⟨0, 1, 0⟩
  | 0x0B01 => some ⟨0, 7, 7⟩
  | 0x0B02 => some ⟨0, 0x77, 0⟩
  | 0x0B03 => some ⟨1, 0xFFFF, 1⟩
  | 0x0B04 => some ⟨0, 1, 0⟩
  | 0x0B05 => some ⟨0, 0xF, 0⟩
  | 0x0B06 => some ⟨0, 1, 1⟩
  | 0x0B07 => some ⟨1, 1000, 10⟩
  | 0x0B08 => some ⟨1, 10000, 100⟩
  | 0x0B09 => some ⟨60, 110, 100⟩
  | 0x0B10 => some ⟨1, 200, 30⟩
  | 0x0B11 => some ⟨1, 200, 45⟩
  | 0x0B12 => some ⟨1, 200, 60⟩
  | 0x0B13 => some ⟨1, 200, 80⟩
  | 0x0B14 => some ⟨1, 200, 100⟩
  | 0x0B18 => some ⟨1, 50, 10⟩
  | 0x0B19 => some ⟨1, 50, 10⟩
  | 0x0B1A => some ⟨1, 50, 10⟩
  | 0x0B1B => some ⟨1, 50, 10⟩
  | 0x0B1C => some ⟨1, 50, 10⟩
  | 0x0C00 => some ⟨-8191, 8191, 0⟩
  | 0x0C01 => some ⟨-8191, 8191, 0⟩
  | 0x0C02 => some ⟨-8191, 8191, 0⟩
  | 0x0C03 => some ⟨-8191, 8191, 0⟩
  | 0x0C04 => some ⟨0, 0xFF, 0xFF⟩
  | 0x0D00 => some ⟨0, 255, 255⟩
  | 0x0D01 => some ⟨0, 2 ^ 32 - 1, 0xFFFFFFFF⟩
  | 0x0D02 => some ⟨0, 0xFFFF, 0xFFFF⟩
  | 0x0D03 => some ⟨0, 2 ^ 32 - 1, 0⟩
  | 0x0D04 => some ⟨1, 65535, 7152⟩
  | 0x0D05 => some ⟨0, 1000000, 100⟩
  | 0x0E00 => some ⟨0, 1, 0⟩
  | 0x0E01 => some ⟨1, 1000, 50⟩
  | 0x0E02 => some ⟨100, 100000, 1000⟩
  | 0x0E03 => some ⟨2, 255, 3⟩
  | 0x0E04 => some ⟨1, 10000, 100⟩
  | 0x0E05 => some ⟨0, 15, 3⟩
  | 0x0E06 => some ⟨10, 60000, 1000⟩
  | 0x0E07 => some ⟨1, 3600, 60⟩
  | _ => none

/-- What the device's settings tables say of a key; none where the device defines no such key. The keys of half-ports that
the GL-1024 lacks name absent half-ports (00 R1, 03 R54). -/
def keyInfo (fuses : Fuses) (key : Nat) : Option KeyInfo :=
  if 0x0200 ≤ key ∧ key < 0x0280 then
    if key - 0x0200 < halfPortsOf fuses.variant then some ⟨0, 2 ^ 32 - 1, 0⟩ else none
  else if 0x0500 ≤ key ∧ key < 0x0540 then tbKeyInfo (key % 16)
  else if key < 0x0500 then linkKeyInfo fuses.macBase.toNat key
  else if key < 0x0B00 then dataKeyInfo key
  else controlKeyInfo key

/-- The runs of defined keys in ascending order: first key and number. -/
def keyRuns : List (Nat × Nat) :=
  [(0x0120, 3), (0x0200, 0x87), (0x0290, 6), (0x0300, 9), (0x0310, 1), (0x0320, 4), (0x0400, 10), (0x0500, 0x45),
   (0x0600, 2), (0x0700, 13), (0x0800, 2), (0x0900, 2), (0x0A00, 2), (0x0B00, 10), (0x0B10, 5), (0x0B18, 5), (0x0C00, 5),
   (0x0D00, 6), (0x0E00, 8)]

/-- Every key the device defines, ascending. -/
def allKeys (fuses : Fuses) : List Nat :=
  (keyRuns.flatMap fun r => (List.range r.2).map (r.1 + ·)).filter fun k => (keyInfo fuses k).isSome

/-! ### HPh_CONFIG (03 Tables 3.2 and 3.3) -/

/-- MODE of an HPh_CONFIG word. -/
def cfgMode (w : Nat) : Nat := bits w 3 0
/-- FEC of an HPh_CONFIG word. -/
def cfgFec (w : Nat) : Bool := bit w 4
/-- RATE of an HPh_CONFIG word. -/
def cfgRate (w : Nat) : Nat := bits w 17 16
/-- TX_PRE of an HPh_CONFIG word. -/
def cfgTxPre (w : Nat) : Nat := bits w 23 20
/-- TX_POST of an HPh_CONFIG word. -/
def cfgTxPost (w : Nat) : Nat := bits w 28 24
/-- PRBS of an HPh_CONFIG word. -/
def cfgPrbs (w : Nat) : Nat := bits w 31 29

/-- An HPh_CONFIG word that Tables 3.2 and 3.3 allow. -/
def hpConfigOk (w : Nat) : Bool :=
  w < 2 ^ 32 && bits w 7 5 == 0 && bits w 19 18 == 0 && cfgMode w ≤ 6 && cfgRate w ≤ 2 && cfgPrbs w ≤ 5 &&
  (match cfgMode w with
   | 0 => !cfgFec w
   | 1 | 2 => cfgFec w && cfgRate w == 0
   | 3 => cfgRate w == 0
   | 4 | 5 => !cfgFec w && cfgRate w ≤ 1
   | _ => !cfgFec w) &&
  (cfgMode w == 6 || cfgPrbs w == 0)

/-! ### Layers and effective values (00 R9) -/

/-- The 64-bit VALUE field of a value. -/
def valueField (v : Int) : Nat := ofSigned 64 v

/-- The value that a 64-bit VALUE field spells. -/
def valueInt (f : Nat) : Int := toSigned 64 f

/-- Whether a VALUE field lies in the key's range (00 R11): the table's range and the layouts that the tables give. -/
def valueOk (fuses : Fuses) (key field : Nat) : Bool :=
  match keyInfo fuses key with
  | none => false
  | some k =>
    let v := valueInt field
    decide (k.lo ≤ v) && decide (v ≤ k.hi) &&
    (if 0x0200 ≤ key ∧ key < 0x0280 then hpConfigOk field
     else if key = 0x0300 then !bit field 24
     else if key = 0x0301 then field % 256 == 0
     else if key = 0x0322 ∨ key = 0x0323 then fuses.variant == .gl2048 || field == 0
     else if key = 0x0B02 then field == 0 || 8 ≤ field
     else if key = 0x0D00 then (field ≤ 127 && field < halfPortsOf fuses.variant) || field == 255
     else if 0x0500 ≤ key ∧ key < 0x0540 ∧ key % 16 = 1 then field < halfPortsOf fuses.variant
     else true)

/-- The factory layer, which holds a value for every key (00 R9); an OTP factory record overrides the tables' value
(19 Table 19.6). -/
def factoryField (fuses : Fuses) (key : Nat) : Nat :=
  match keyInfo fuses key with
  | none => 0
  | some k => match fuses.records.find? fun r => r.1 == key with
    | some r => r.2
    | none => valueField k.factory

/-- The value a layer keeps of a VALUE field: bit 0 of PWR_RETAIN_MASK always reads 1 (17 R388). -/
def keptField (key field : Nat) : Nat := if key = 0x0B03 then field ||| 1 else field

/-- The layer that supplies a key's effective value, 1 runtime, 2 image or 3 factory, and its VALUE field (00 R9). -/
def supplied (fuses : Fuses) (l : SettingLayers) (key : Nat) : Nat × Nat :=
  match tfind l.runtime key with
  | some v => (1, v)
  | none => match tfind l.image key with
    | some v => (2, v)
    | none => (3, factoryField fuses key)

/-- The VALUE field of the highest layer that holds one (00 R9). -/
def effectiveIn (fuses : Fuses) (l : SettingLayers) (key : Nat) : Nat := (supplied fuses l key).2

/-- The effective VALUE field of a key. -/
def State.eff (s : State) (key : Nat) : Nat := effectiveIn s.fuses s.set key

/-- The effective value of a signed key. -/
def State.effInt (s : State) (key : Nat) : Int := valueInt (s.eff key)

/-- The effective HPh_CONFIG word of a half-port. -/
def State.hpConfig (s : State) (h : Nat) : Nat := s.eff (0x0200 + h)

/-- The effective value of item `i` of time base `n`'s keys. -/
def State.tbKey (s : State) (n i : Nat) : Nat := s.eff (0x0500 + 16 * n + i)

end Sys2Proof.Machine
end

