-- ==== Sys2Proof/Machine/Clock.lean ====
section
/-! DEFINITION. Reading the four time bases, the packed timestamp, and the advance of the clocks (02 R19 to R21, R50). -/

namespace Sys2Proof.Machine

/-- One nanosecond in the units of a base's count. -/
def nsUnit : Nat := 2 ^ 32
/-- The count at which 48-bit seconds wrap. -/
def tbWrap : Nat := 2 ^ 48 * 10 ^ 9 * nsUnit

/-- Time base `n`. -/
def State.tb (s : State) (n : Nat) : TimeBase := tget s.tbs n {}

/-- Changes time base `n`. -/
def State.onTb (s : State) (n : Nat) (f : TimeBase → TimeBase) : State := { s with tbs := tput s.tbs n (f (s.tb n)) }

/-- Whether the base has a time to report: neither DISABLED nor UNSET (02 R20). -/
def TimeBase.hasTime (b : TimeBase) : Bool :=
  match b.mode with | .disabled | .unset => false | _ => true

/-- The count that the base reports (02 R20). -/
def TimeBase.reported (b : TimeBase) : Nat := if b.hasTime then b.count else 0

/-- The epoch id that the base reports (02 R20, R21). -/
def TimeBase.epoch (b : TimeBase) : Nat := if b.hasTime then b.lastEpoch else 0

/-- The reported time in whole nanoseconds. -/
def TimeBase.ns (b : TimeBase) : Nat := b.reported / nsUnit

/-- The packed form of 02 R50: seconds modulo 2^34, then nanoseconds. -/
def packTime (ns : Nat) : Nat := ns / 10 ^ 9 % 2 ^ 34 * 2 ^ 30 + ns % 10 ^ 9

/-- The 96-bit form of 02 R19: seconds 6, nanoseconds 4 and fraction 2 bytes. -/
def timeBytes (count : Nat) : Bytes :=
  be 6 (count / nsUnit / 10 ^ 9) ++ be 4 (count / nsUnit % 10 ^ 9) ++ be 2 (count % nsUnit / 2 ^ 16)

/-- A timestamp taken from base `n` now. -/
def State.stampOf (s : State) (n : Nat) : Stamp := { packed := packTime (s.tb n).ns, epoch := (s.tb n).epoch }

/-- A timestamp of TB0, as the journal, the events and the fault record carry it. -/
def State.stamp (s : State) : Stamp := s.stampOf 0

/-- The count of a running base after `dt` core cycles; a DISABLED base is stopped (02 Table 2.1). -/
def TimeBase.after (b : TimeBase) (dt : Nat) : TimeBase :=
  match b.mode with
  | .disabled => b
  | _ => { b with count := (b.count + dt * b.increment) % tbWrap }

/-- Whether a unit runs its firmware. -/
def CuUnit.runs (x : CuUnit) : Bool :=
  match x.state with
  | .syncing | .standby | .active | .isolated | .takingOver => true
  | _ => false

/-- The heartbeats of a unit up to core cycle `now`, one in every `period` cycles while it runs: the mailbox counter counts and the
wire toggles (14 R331). -/
def CuUnit.beats (x : CuUnit) (now period : Nat) : CuUnit :=
  if !x.runs then { x with beatAt := now }
  else
    let n := (now - x.beatAt) / period
    { x with mailbox := (x.mailbox + n) % 2 ^ 32, wire := x.wire != (n % 2 == 1), beatAt := x.beatAt + n * period }

/-- Advances the core clock, every time base and the heartbeats by `dt` cycles (02 R19, 14 R331). -/
def State.advance (s : State) (dt : Nat) : State :=
  { s with cycle := s.cycle + dt
           tbs := (List.range 4).foldl (fun t n => tput t n ((tget t n {}).after dt)) s.tbs
           cu := { s.cu with units := s.cu.units.map fun e => (e.1, e.2.beats (s.cycle + dt) (1000 * s.eff 0x0E02)) } }

/-- The oldest orbit open at ingest, all ones with no programme in effect (13 Table 13.11, 16 Table 16.5). -/
def State.orbitField (s : State) : Nat := s.orb.oldest.getD (2 ^ 64 - 1)

end Sys2Proof.Machine
end

