-- ==== Sys2Proof/Machine/Flags.lean ====
section
/-! DEFINITION. The event tree: sticky bits, routes, occurrence counters, packet records, the fault record and the cause
masks of the summary events (16_events_and_faults.md R364 to R378; 03 R70; 08 R205; 12 R298). -/

namespace Sys2Proof.Machine

/-- Whether a chapter defines event `e` and its source is present on the variant (16 R364, 00 R1). -/
def eventPresent (v : Variant) (e : Nat) : Bool :=
  decide (e < enginesOf v) ||
  (decide (512 ≤ e) && decide (e < 512 + halfPortsOf v)) ||
  (decide (640 ≤ e) && decide (e ≤ 645)) ||
  (decide (656 ≤ e) && decide (e < 656 + 8 * stacksOf v) && decide ((e - 656) % 8 ≤ 5)) ||
  (decide (704 ≤ e) && decide (e ≤ 739)) ||
  (decide (744 ≤ e) && decide (e < (match v with | .gl2048 => 752 | .gl1024 => 748))) ||
  (decide (768 ≤ e) && decide (e ≤ 836)) ||
  [840, 841, 842, 844, 845, 846].contains e ||
  (decide (896 ≤ e) && decide (e ≤ 907)) ||
  (decide (912 ≤ e) && decide (e ≤ 915)) ||
  (decide (960 ≤ e) && decide (e ≤ 965)) ||
  (decide (976 ≤ e) && decide (e ≤ 1006)) ||
  (decide (1008 ≤ e) && decide (e ≤ 1011)) ||
  (decide (1016 ≤ e) && decide (e ≤ 1022))

/-- The routes at PORST_N (16 Table 16.3). -/
def defaultRoute (v : Variant) (e : Nat) : Byte :=
  if !eventPresent v e then 0x00
  else if e = 640 ∨ (656 ≤ e ∧ e < 688 ∧ [1, 2, 4].contains ((e - 656) % 8)) ∨ [898, 900, 902, 904, 906, 915].contains e
  then 0x07 else 0x05

/-- Whether the control domain is powered (17 R381, Table 1.2). -/
def State.ctlLive (s : State) : Bool := !s.boot.porstLow && s.pwr.ctlOn

/-- ACTIVE or IDLE: every domain is powered (01 Table 1.2). -/
def PowerState.awake (x : PowerState) : Bool := x == .active || x == .idle

/-- Whether the domains that sleep in DOZE are powered, the device not held in reset. -/
def State.dmaLive (s : State) : Bool := s.ctlLive && s.pwr.state.awake

/-- The route byte of event `e` (16 Table 16.2). -/
def State.route (s : State) (e : Nat) : Byte := tget s.ev.routes e (defaultRoute s.fuses.variant e)

/-- Whether the sticky bit of event `e` is set. -/
def State.stickyBit (s : State) (e : Nat) : Bool := s.ev.sticky.getLsbD e

/-- A decimal number in ASCII. -/
def decimal (n : Nat) : Bytes := ascii (toString n)

/-- The letter of a block tag. -/
def tagLetter (t : BlockTag) : Bytes :=
  match t with
  | .H => ascii "H" | .L => ascii "L" | .N => ascii "N" | .K => ascii "K"
  | .S => ascii "S" | .O => ascii "O" | .I => ascii "I" | .J => ascii "J"

/-- A tag of a location code with its number. -/
def locTag (tag : String) (n : Nat) : Bytes := ascii tag ++ decimal n

/-- The location code of a place: the tags from P down to the one at which the code stops (00 R7, R8). -/
def locCode (l : Location) : Bytes :=
  let engine := fun (e : Nat) => ascii "P0.D0" ++ locTag ".C" (e / 16) ++ locTag ".E" e
  match l with
  | .package => ascii "P0"
  | .die => ascii "P0.D0"
  | .cluster c => ascii "P0.D0" ++ locTag ".C" c
  | .engine e => engine e
  | .array e => engine e ++ ascii ".A0"
  | .cell e m => engine e ++ ascii ".A0" ++ locTag ".M" m
  | .cellBit e m b => engine e ++ ascii ".A0" ++ locTag ".M" m ++ locTag ".B" b
  | .block t n b => ascii "P0.D0." ++ tagLetter t ++ decimal n ++ (match b with | some b => locTag ".B" b | none => [])

/-- The location code of engine `e`. -/
def locEngine (e : Nat) : Bytes := locCode (.engine e)

/-- The location code of a place below D (00 R8). -/
def locBlock (tag : BlockTag) (n : Nat) : Bytes := locCode (.block tag n none)

/-- The location code of the die. -/
def locDie : Bytes := locCode .die

/-- The location code of an event's source (16 R376). -/
def sourceLocation (e : Nat) : Bytes :=
  if e < 512 then locEngine e else if e < 640 then locBlock .L (4 * (e - 512)) else locDie

/-- What a rule says of a fault that enters the fault record (16 R376). -/
structure FaultSpec where
  loc : Bytes
  detail : Nat := 0
  unit : Nat := 3
  /-- The rule enters the fault; otherwise it only says what an entry made by the route holds. -/
  always : Bool := true

/-- The entry of the fault record that a fault makes, with the next FSN (16 Table 16.5). -/
def newFault (s : State) (e : Nat) (f : FaultSpec) : FaultEntry :=
  { fsn := s.ev.nextFsn, event := e, unit := f.unit, timeUnset := !(s.tb 0).hasTime, stamp := s.stamp, repeats := 0,
    detail := f.detail % 2 ^ 32, orbit := s.orbitField, location := f.loc }

/-- The slot of the fault record that already holds the event at the location (16 R376). -/
def heldFault (t : Tab FaultEntry) (e : Nat) (loc : Bytes) : Option Nat :=
  (t.find? fun x => decide (x.2.event = e) && decide (x.2.location = loc)).map (·.1)

/-- The lowest empty slot of the fault record (16 R376). -/
def emptySlot (t : Tab FaultEntry) : Option Nat := (List.range 64).find? fun i => !thas t i

/-- Enters a fault into the fault record, merges it, or counts the overflow; also says whether it found no empty slot
(16 R376, R377). -/
def recordFault (e : Nat) (f : FaultSpec) (s : State) : State × Bool :=
  match heldFault s.ev.faults e f.loc with
  | some i =>
    match tfind s.ev.faults i with
    | some x => ({ s with ev := { s.ev with faults := tput s.ev.faults i { x with repeats := satInc 16 x.repeats } } }, false)
    | none => (s, false)
  | none =>
    match emptySlot s.ev.faults with
    | some i =>
      ({ s with ev := { s.ev with faults := tput s.ev.faults i (newFault s e f), nextFsn := s.ev.nextFsn + 1 } }, false)
    | none => ({ s with ev := { s.ev with overflows := satInc 32 s.ev.overflows } }, true)

/-- Queues a packet record; also says whether it was dropped (16 R373, R374). -/
def queueRecord (e cause : Nat) (s : State) : State × Bool :=
  if s.ev.queue.length < 64 then
    let ev := if s.ev.queue.isEmpty then { s.ev with holdStamp := s.stamp, holdCycle := s.cycle } else s.ev
    ({ s with ev := { ev with queue := ev.queue ++ [{ event := e, cause := cause % 2 ^ 16, cycle := s.cycle }] } }, false)
  else ({ s with ev := { s.ev with lost := true, recordsDropped := satInc 32 s.ev.recordsDropped } }, true)

/-- Counts an occurrence of event `e` and sets its sticky bit (16 R365, R371). -/
def countOccurrence (e : Nat) (s : State) : State :=
  { s with ev := { s.ev with sticky := s.ev.sticky ||| (1#1024 <<< e)
                             occurrences := tmod s.ev.occurrences e 0 (satInc 32) } }

/-- An occurrence of event `e` with a summary cause and, where a rule says so, a fault: counted; where the sticky bit goes
from 0 to 1, the record and the entry that the route asks for; EV_EVENT_PACKET_LOST and EV_FAULT_RECORD_FULL follow. The
fuel bounds the occurrences that those two raise of themselves. -/
def occur (fuel e cause : Nat) (f : Option FaultSpec) (s : State) : State :=
  match fuel with
  | 0 => s
  | fuel + 1 =>
    if eventPresent s.fuses.variant e then
      let first := !s.stickyBit e
      let route := s.route e
      let s := countOccurrence e s
      let (s, lost) := if first && route.getLsbD 2 then queueRecord e cause s else (s, false)
      let f := f.getD { loc := sourceLocation e, always := false }
      let (s, full) := if f.always || (first && route.getLsbD 3) then recordFault e f s else (s, false)
      let s := if lost then occur fuel 965 0 none s else s
      if full then occur fuel 964 0 none s else s
    else s

/-- Raises event `e`. -/
def raise (e : Nat) (s : State) : State := occur 6 e 0 none s

/-- Raises event `e` with a fault that a rule enters into the fault record. -/
def raiseFault (e : Nat) (f : FaultSpec) (s : State) : State := occur 6 e 0 (some f) s

/-- Raises event `e`, whose entry, if its route makes one, holds a detail. -/
def raiseDetail (e detail : Nat) (s : State) : State :=
  occur 6 e 0 (some { loc := sourceLocation e, detail := detail, always := false }) s

/-- Half-port `h`. -/
def State.hp (s : State) (h : Nat) : HalfPort := tget s.hps h {}

/-- Changes half-port `h`. -/
def State.onHp (s : State) (h : Nat) (f : HalfPort → HalfPort) : State := { s with hps := tput s.hps h (f (s.hp h)) }

/-- Sets a bit of a half-port's cause mask and, if it was clear, raises EV_HP_SUMMARY (03 R70). -/
def setHpCause (h b : Nat) (s : State) : State :=
  if bit (s.hp h).cause b then s
  else
    let s := s.onHp h fun p => { p with cause := setBit p.cause b }
    occur 6 (512 + h) (s.hp h).cause none s

/-- Whether EVENT_N (bit 0) or FAULT_N (bit 1) of the routes holds a pin low: some sticky event has that route bit. -/
def routedLow (s : State) (b : Nat) : Bool :=
  (List.range 1024).any fun e => s.stickyBit e && (s.route e).getLsbD b

/-- The STICKY map of EVENTS_READ and EVENTS_CLEAR: event e is bit 7 - (e mod 8) of byte e div 8. -/
def eventMap (p : Nat → Bool) : Bytes :=
  (List.range 128).map fun i =>
    BitVec.ofNat 8 ((List.range 8).foldl (fun a k => a * 2 + b2n (p (8 * i + k))) 0)

/-- Bit e of a 128-byte map. -/
def mapBit (m : Bytes) (e : Nat) : Bool := ((m.getD (e / 8) 0).toNat).testBit (7 - e % 8)

/-- Whether every engine part and the datapath are powered and out of reset: ACTIVE or IDLE (17 Table 17.1). -/
def State.coreLive (s : State) : Bool := !s.boot.porstLow && s.pwr.state == .active

end Sys2Proof.Machine
end

