-- ==== Sys2Proof/Machine/Net.lean ====
section
/-! DEFINITION. Frames: addresses, the frames the device sends and the receive checks of Table 4.2
(04_ethernet_and_packets.md R74 to R79, R97, R98). -/

namespace Sys2Proof.Machine

/-- The frame check sequence of a frame, in the order it is sent (IEEE 802.3, which 04 Table 4.2 step 1 cites). -/
def fcs (bs : Bytes) : Bytes :=
  (be 4 ((bs.foldl (crc32Byte 0xEDB88320#32) 0xFFFFFFFF#32) ^^^ 0xFFFFFFFF#32).toNat).reverse

/-- The one's complement sum of the 16-bit words of a byte string, an odd last byte padded with zero. -/
def onesSum : Bytes → Nat
  | [] => 0
  | [a] => a.toNat * 256
  | a :: b :: t => a.toNat * 256 + b.toNat + onesSum t

/-- Folds the carries of a one's complement sum into 16 bits. -/
def foldSum (n : Nat) : Nat :=
  let a := n % 2 ^ 16 + n / 2 ^ 16
  let b := a % 2 ^ 16 + a / 2 ^ 16
  b % 2 ^ 16 + b / 2 ^ 16

/-- The Internet checksum field that makes the sum over a byte string all ones. -/
def inetSum (bs : Bytes) : Nat := 0xFFFF - foldSum (onesSum bs)

/-- Whether a byte string that carries its own checksum sums to all ones. -/
def inetOk (bs : Bytes) : Bool := foldSum (onesSum bs) == 0xFFFF

/-- ETH_MAC_BASE (04 R74). -/
def State.macBase (s : State) : Nat := s.eff 0x0300 * 2 ^ 16 + s.eff 0x0301

/-- The MAC address of half-port `h`, or of the Management Port for 255 (04 R74). -/
def State.macOf (s : State) (h : Nat) : Nat := if h = 255 then s.macBase else (s.macBase + 1 + h) % 2 ^ 48

/-- The IPv4 address of a half-port, or of the Management Port for 255 (04 R75). -/
def State.ipOf (s : State) (h : Nat) : Nat := if h = 255 then s.eff 0x0310 else s.eff 0x0302

/-- An Ethernet frame with its padding and FCS. -/
def ethFrame (dst src : Nat) (tag : Option Nat) (ethertype : Nat) (payload : Bytes) : Bytes :=
  let head := be 6 dst ++ be 6 src ++ (match tag with | some t => be 2 0x8100 ++ be 2 t | none => []) ++ be 2 ethertype
  let body := padTo 60 (head ++ payload)
  body ++ fcs body

/-- A UDP/IPv4 payload as every frame sent carries it: IHL 5, DF = 1, identification 0, ETH_TTL, computed checksums (04 R78). -/
def udpPacket (ttl dscp srcIp dstIp srcPort dstPort : Nat) (data : Bytes) : Bytes :=
  let ulen := 8 + data.length
  let pseudo := be 4 srcIp ++ be 4 dstIp ++ [0, 17] ++ be 2 ulen
  let uhead := be 2 srcPort ++ be 2 dstPort ++ be 2 ulen
  let sum := inetSum (pseudo ++ uhead ++ [0, 0] ++ data)
  let ihead1 := [0x45, BitVec.ofNat 8 (dscp * 4)] ++ be 2 (20 + ulen) ++ [0, 0, 0x40, 0] ++ be 1 ttl ++ [17]
  let ihead2 := be 4 srcIp ++ be 4 dstIp
  ihead1 ++ be 2 (inetSum (ihead1 ++ [0, 0] ++ ihead2)) ++ ihead2 ++ uhead ++ be 2 (if sum = 0 then 0xFFFF else sum) ++ data

/-- The counters of the Management Port in the order of 03 R446. -/
inductive MpCtr where
  | received | sent | fcs | runt | oversize | layer2 | layer3 | overflow | notForDevice | icmpDropped | arpAnswered | echoAnswered
  | linkLosses | rateLost

/-- Counts one more on the Management Port. -/
def bumpMp (c : MpCtr) (s : State) : State :=
  { s with mp := { s.mp with counters := tmod s.mp.counters c.ctorIdx 0 (satInc 32) } }

/-- Whether a half-port is in a near-end loopback, in which its link layer receives its own transmission (03 Table 3.5). -/
def HalfPort.nearLoop (p : HalfPort) : Bool := p.state == .loopback && (p.loopKind == 1 || p.loopKind == 2)

/-- Sends a frame on a half-port, or on the Management Port for 255. A near-end loopback also returns it to the receiver, and
the parallel one keeps it from the balls (03 Table 3.5). -/
def sendFrame (port : Nat) (frame : Bytes) (s : State) : State :=
  if port = 255 then bumpMp .sent { s with sent := (port, frame) :: s.sent }
  else if (s.hp port).nearLoop then
    let s := if (s.hp port).loopKind = 1 then { s with sent := (port, frame) :: s.sent } else s
    s.onHp port fun p => { p with looped := p.looped ++ [frame] }
  else { s with sent := (port, frame) :: s.sent }

/-- Sends a UDP datagram from a port of the device (04 R78). -/
def sendUdp (port dstMac : Nat) (tag : Option Nat) (dscp dstIp srcPort dstPort : Nat) (data : Bytes) (s : State) : State :=
  sendFrame port
    (ethFrame dstMac (s.macOf port) tag 0x0800
      (udpPacket (s.eff 0x0305) dscp (s.ipOf port) dstIp srcPort dstPort data)) s

/-- Whether a half-port runs an Ethernet mode: 1, 2 or 3 (03 Table 3.3). -/
def HalfPort.ethernet (p : HalfPort) : Bool := 1 ≤ cfgMode p.trained && cfgMode p.trained ≤ 3

/-- Whether the half-port's link layer can send Ethernet frames now: in an Ethernet mode, and UP or in a near-end loopback
(04 R77, R16; 03 R67). -/
def State.ethUp (s : State) (h : Nat) : Bool := (s.hp h).ethernet && ((s.hp h).state == .up || (s.hp h).nearLoop)

/-- Whether the half-port takes Ethernet frames from its balls: in an Ethernet mode, and UP. -/
def State.ethIn (s : State) (h : Nat) : Bool := (s.hp h).ethernet && (s.hp h).state == .up

/-! ### Receive checks -/

/-- The receive counters of a half-port (04 Table 4.12), in the table's order. -/
inductive RxClass where
  | fcs | runt | oversize | layer2 | pause | layer3 | overflow | notForDevice
  deriving DecidableEq, Repr

/-- What becomes of a received frame (04 Table 4.2, R79). -/
inductive RxFate where
  | drop (c : RxClass)
  | ingest (payload : Bytes)
  | command (o : Origin) (packet : Bytes)
  | ptp (layer2 : Bool) (message : Bytes)
  /-- An ARP request for MP_IPV4: source MAC, sender MAC and IPv4, and tag. -/
  | arp (src mac ip : Nat) (tag : Option Nat)
  /-- An ICMP echo request: source MAC, IPv4, tag and the ICMP bytes. -/
  | echo (mac ip : Nat) (tag : Option Nat) (icmp : Bytes)
  | icmpDrop
  deriving DecidableEq, Repr

/-- The bases that run PTP on a half-port with a transport: 0 UDP, 1 IEEE 802.3 (02 R22, R23). -/
def State.ptpBases (s : State) (h tr : Nat) : List Nat :=
  (List.range 4).filter fun n => s.tbKey n 0 == 1 && s.tbKey n 1 == h && s.tbKey n 3 == tr

/-- A half-port named by an enabled TBn_PTP_HP (04 Table 4.2 steps 2 and 4). -/
def State.isPtpPort (s : State) (h : Nat) : Bool := (List.range 4).any fun n => s.tbKey n 0 == 1 && s.tbKey n 1 == h

/-- Whether a half-port is designated for commands by CMD_HP_MASKn (13 Table 13.1). -/
def State.cmdPort (s : State) (h : Nat) : Bool := bit (s.eff (0x0320 + h / 32)) (h % 32)

/-- Whether the transport of a command packet carries it now: a half-port in an Ethernet mode, UP and designated for commands,
the Management Port UP, or the Sideband (01 R16; 13 Table 13.1). -/
def State.carries (s : State) (o : Origin) : Bool :=
  match o.transport with
  | .halfPort => s.ethIn o.hp && s.cmdPort o.hp
  | .managementPort => s.mp.state == .up
  | .sideband => true

/-- Step 1 of Table 4.2: size and FCS; none where the frame passes. -/
def checkFcs (f : Bytes) : Option RxClass :=
  if f.length < 64 then some .runt
  else if 9216 < f.length then some .oversize
  else if fcs (f.take (f.length - 4)) = f.drop (f.length - 4) then none else some .fcs

/-- The tag, the Ethertype and the payload of a frame without its FCS; none for two or more tags (04 Table 4.2 step 3). -/
def parseEth (f : Bytes) : Option (Option Nat × Nat × Bytes) :=
  let f := f.take (f.length - 4)
  let t := fld f 12 2
  if t = 0x8100 then
    let t2 := fld f 16 2
    if t2 = 0x8100 ∨ t2 = 0x88A8 then none else some (some (fld f 14 2), t2, f.drop 18)
  else some (none, t, f.drop 14)

/-- Step 5 of Table 4.2 with the protocols accepted: the source and destination addresses, the protocol and the datagram's
payload up to the total length. -/
def parseIp (protocols : List Nat) (d : Bytes) : Option (Nat × Nat × Nat × Bytes) :=
  let total := fld d 2 2
  if 20 ≤ d.length && fld d 0 1 == 0x45 && inetOk (d.take 20) && 20 ≤ total && total ≤ d.length &&
     fld d 6 2 % 0x4000 == 0 && protocols.contains (fld d 9 1)
  then some (fld d 12 4, fld d 16 4, fld d 9 1, (d.take total).drop 20)
  else none

/-- Step 7 of Table 4.2: the UDP length and checksum; gives source port, destination port and payload. -/
def parseUdp (srcIp dstIp : Nat) (u : Bytes) : Option (Nat × Nat × Bytes) :=
  if 8 ≤ u.length && fld u 4 2 == u.length &&
     (fld u 6 2 == 0 || inetOk (be 4 srcIp ++ be 4 dstIp ++ [0, 17] ++ be 2 u.length ++ u))
  then some (fld u 0 2, fld u 2 2, u.drop 8)
  else none

/-- The fate of a frame on Ethernet half-port `h` (04 R77, Table 4.2, the checks in order). -/
def rxFate (s : State) (h : Nat) (f : Bytes) : RxFate :=
  match checkFcs f with
  | some c => .drop c
  | none =>
    let ptp := s.isPtpPort h
    let dst := fld f 0 6
    if !(dst == s.macOf h || (ptp && (dst == 0x011B19000000 || dst == 0x01005E000181))) then .drop .notForDevice
    else match parseEth f with
    | none => .drop .layer2
    | some (tag, et, d) =>
      if et = 0x88F7 ∧ (s.ptpBases h 1) ≠ [] then .ptp true d
      else if et = 0x8808 then .drop .pause
      else if et ≠ 0x0800 then .drop .layer2
      else match parseIp [17] d with
      | none => .drop .layer3
      | some (srcIp, dstIp, _, u) =>
        if !((dstIp == s.eff 0x0302 && s.eff 0x0302 != 0) || (ptp && dstIp == 0xE0000181)) then .drop .notForDevice
        else match parseUdp srcIp dstIp u with
        | none => .drop .layer3
        | some (sp, dp, pl) =>
          if dp = s.eff 0x0303 then .ingest pl
          else if dp = s.eff 0x0304 then
            if s.cmdPort h then
              .command { transport := .halfPort, hp := h, mac := fld f 6 6, ip := srcIp, port := sp, tag := tag } pl
            else .drop .layer3
          else if (dp = 319 ∨ dp = 320) ∧ ptp then .ptp false pl
          else .drop .notForDevice

/-- The fate of a frame on the Management Port (04 R79). DESIGN CHOICE (log entry 125): no frame is a receive overflow, as the spec
gives the Management Port no buffer size. -/
def mpFate (s : State) (f : Bytes) : RxFate :=
  match checkFcs f with
  | some c => .drop c
  | none =>
    let dst := fld f 0 6
    if !(dst == s.macBase || dst == 0xFFFFFFFFFFFF) then .drop .notForDevice
    else match parseEth f with
    | none => .drop .layer2
    | some (tag, et, d) =>
      if et = 0x0806 then
        if 28 ≤ d.length && fld d 0 2 == 1 && fld d 2 2 == 0x0800 && fld d 4 1 == 6 && fld d 5 1 == 4 && fld d 6 2 == 1 &&
           fld d 24 4 == s.eff 0x0310 && s.eff 0x0310 != 0
        then .arp (fld f 6 6) (fld d 8 6) (fld d 14 4) tag
        else .drop .notForDevice
      else if et = 0x8808 then .drop .pause
      else if et ≠ 0x0800 then .drop .layer2
      else match parseIp [17, 1] d with
      | none => .drop .layer3
      | some (srcIp, dstIp, proto, u) =>
        if !(dstIp == s.eff 0x0310 && s.eff 0x0310 != 0) then .drop .notForDevice
        else if proto = 1 then
          if 8 ≤ u.length && inetOk u && fld u 0 2 == 0x0800 then .echo (fld f 6 6) srcIp tag u else .icmpDrop
        else match parseUdp srcIp dstIp u with
        | none => .drop .layer3
        | some (sp, dp, pl) =>
          if dp = s.eff 0x0304 then
            .command { transport := .managementPort, hp := 255, mac := fld f 6 6, ip := srcIp, port := sp, tag := tag } pl
          else .drop .notForDevice

/-- The cause bit of a receive class on a half-port (04 R98); none for pause and not-for-device frames. -/
def RxClass.cause : RxClass → Option Nat
  | .fcs | .runt | .oversize => some 11
  | .layer2 => some 12
  | .layer3 => some 13
  | .overflow => some 15
  | .pause | .notForDevice => none

/-- Counts a received frame in its class and sets the class's cause (04 R77, R97, R98). -/
def countRx (h : Nat) (c : RxClass) (s : State) : State :=
  let s := s.onHp h fun p => { p with rx := tmod p.rx c.ctorIdx 0 (satInc 32) }
  match c.cause with
  | some b => setHpCause h b s
  | none => s

/-- An ARP packet for Ethernet and IPv4. -/
def arpPacket (opcode senderMac senderIp targetMac targetIp : Nat) : Bytes :=
  be 2 1 ++ be 2 0x0800 ++ [6, 4] ++ be 2 opcode ++ be 6 senderMac ++ be 4 senderIp ++ be 6 targetMac ++ be 4 targetIp

end Sys2Proof.Machine
end

