-- ==== Sys2Proof/Machine/Journal.lean ====
section
/-! DEFINITION. The journal and the command store (13_command_protocol.md R319, R320; 14_ringmasters.md R335, R336). -/

namespace Sys2Proof.Machine

/-- Programme slot `i`. -/
def State.slot (s : State) (i : Nat) : ProgSlot := tget s.prg.slots i {}

/-- Changes programme slot `i`. -/
def State.onSlot (s : State) (i : Nat) (f : ProgSlot → ProgSlot) : State :=
  { s with prg := { s.prg with slots := tput s.prg.slots i (f (s.slot i)) } }

/-- The slot in a state, if one is. -/
def State.slotIn (s : State) (st : SlotState) : Option Nat := (List.range 3).find? fun i => (s.slot i).state == st

/-- The generation in effect; 0 for none (11 R264). -/
def State.generation (s : State) : Nat := match s.slotIn .inEffect with | some i => (s.slot i).generation | none => 0

/-- Ringmaster `u`. -/
def State.unit (s : State) (u : Nat) : CuUnit := tget s.cu.units u {}

/-- Changes Ringmaster `u`. -/
def State.onUnit (s : State) (u : Nat) (f : CuUnit → CuUnit) : State :=
  { s with cu := { s.cu with units := tput s.cu.units u (f (s.unit u)) } }

/-- TRANSPORT of a journal entry (13 Table 13.11). -/
def transportCode : Transport → Nat
  | .managementPort => 0
  | .halfPort => 1
  | .sideband => 2

/-- KIND of a journal entry (13 Table 13.11). -/
inductive EntryKind where
  | command | completion | mark | takeover | boot | wake

/-- Forgets what the control bus has written over the words `first` up to but not including `past` of the journal retention group,
as the holder writes there. -/
def overwriteGroup (first past : Nat) (s : State) : State :=
  { s with cu := { s.cu with group0 := s.cu.group0.filter fun e => decide (e.1 < first) || decide (past ≤ e.1) } }

/-- The byte offset of an entry's slot in the ring (DESIGN CHOICE, log entry 154: JSN 1 lies in the first). -/
def journalSlot (jsn : Nat) : Nat := 64 * ((jsn + 4095) % 4096)

/-- Writes an entry with the next JSN; an overwritten entry that was never read raises EV_CMD_JOURNAL_LOSS (13 R320). -/
def writeEntry (kind : EntryKind) (session seq opcode status unit digest plen transport : Nat) (detail : Bytes)
    (s : State) : State :=
  let e : JournalEntry :=
    { jsn := s.cmd.nextJsn, orbit := s.orbitField, stamp := s.stamp, session := session, seq := seq, opcode := opcode,
      status := status, unit := unit, digest := digest, paramLength := plen, kind := kind.ctorIdx,
      transport := transport, generation := s.generation, detail := padTo 8 (detail.take 8) }
  let lossy := (s.cmd.journal.drop 4095).any fun old => decide (s.cmd.readJsn < old.jsn)
  let first := journalSlot s.cmd.nextJsn / 4
  let s := overwriteGroup first (first + 16)
    { s with cmd := { s.cmd with journal := (e :: s.cmd.journal).take 4096, nextJsn := s.cmd.nextJsn + 1 } }
  if lossy then raise 962 s else s

/-- The newest JSN written. -/
def State.newestJsn (s : State) : Nat := s.cmd.nextJsn - 1

/-- The oldest JSN held. -/
def State.oldestJsn (s : State) : Nat := match s.cmd.journal.getLast? with | some e => e.jsn | none => 0

/-- The 64 bytes of a journal entry (13 Table 13.11). -/
def JournalEntry.bytes (e : JournalEntry) : Bytes :=
  let b := be 8 e.jsn ++ be 8 e.orbit ++ be 8 e.stamp.packed ++ be 2 e.stamp.epoch ++ be 2 e.session ++ be 4 e.seq ++
    be 2 e.opcode ++ be 1 e.status ++ be 1 e.unit ++ be 4 e.digest ++ be 2 e.paramLength ++ be 1 e.kind ++
    be 1 e.transport ++ be 4 e.generation ++ e.detail ++ be 4 0
  b ++ be 4 (crc32c b)

/-- Bytes at an offset of the journal retention group, with the words that the control bus has written over them. -/
def overlaid (t : Tab Nat) (base : Nat) (b : Bytes) : Bytes :=
  if t.isEmpty then b
  else (List.range (b.length / 4)).flatMap fun i => match tfind t (base / 4 + i) with
    | some w => be 4 w
    | none => slice b (4 * i) 4

/-- The 64 bytes in an entry's slot. -/
def State.entryBytes (s : State) (e : JournalEntry) : Bytes := overlaid s.cu.group0 (journalSlot e.jsn) e.bytes

/-- The bytes of a fault record entry, or of an empty slot (16 Table 16.5). -/
def faultBytes : Option FaultEntry → Bytes
  | none => List.replicate 64 0
  | some e =>
    let b := be 4 e.fsn ++ be 2 e.event ++ be 1 e.unit ++ be 1 (b2n e.timeUnset) ++ be 8 e.stamp.packed ++
      be 2 e.stamp.epoch ++ be 2 e.repeats ++ be 4 e.detail ++ be 8 e.orbit ++ padTo 28 (e.location.take 28)
    b ++ be 4 (crc32c b)

/-- The bytes a command store record takes (14 R335). -/
def StoreRecord.size (r : StoreRecord) : Nat := 16 + (r.params.length + 3) / 4 * 4

/-- The size of the command store (14 Table 14.3). -/
def storeSize : Nat := 1024 * 1024

/-- Drops the oldest records until the ring holds no more than its size. The list is newest first. -/
def trimStore (room : Nat) : List StoreRecord → List StoreRecord
  | [] => []
  | r :: rs => if r.size ≤ room then r :: trimStore (room - r.size) rs else []

/-- The newest complete epoch (14 R338). -/
def State.newestEpoch (s : State) : Option EpochBuffer :=
  let b0 := tget s.cu.buffers 0 {}
  let b1 := tget s.cu.buffers 1 {}
  match b0.complete, b1.complete with
  | true, true => some (if b0.number < b1.number then b1 else b0)
  | true, false => some b0
  | false, true => some b1
  | false, false => none

/-- What an epoch copies of the firmware state (14 R337). -/
def State.epochBody (s : State) : EpochBody :=
  { set := s.set, slots := s.prg.slots, assemblies := s.prg.assemblies, tbs := s.tbs, alarms := s.alarms,
    hostTables := s.dma.inline, pwr := s.pwr, pending := s.cmd.pending }

/-- The buffer that the next epoch goes into: the one that does not hold the newest complete epoch (14 R337). -/
def State.epochTarget (s : State) : Nat :=
  match s.newestEpoch with
  | some b => if (tget s.cu.buffers 0 {}).complete && (tget s.cu.buffers 0 {}).number == b.number then 1 else 0
  | none => 0

/-- The byte offset of epoch buffer `i` in the journal retention group, and its size (14 Table 14.3). -/
def epochBase (i : Nat) : Nat := 0x260000 + 0xC0000 * i
/-- The size of an epoch buffer. -/
def epochSize : Nat := 0xC0000

/-- Body bytes of an epoch, at most 786,400. -/
def EpochBuffer.length (b : EpochBuffer) : Nat := Config.epochLength b.boot b.number % 786401
/-- The body of an epoch, whose layout the spec does not give (log entry 154). -/
def EpochBuffer.bytes (b : EpochBuffer) : Bytes := (List.range b.length).map (Config.epochByte b.boot b.number)
/-- MAGIC of a complete epoch. -/
def epochMagic : Nat := 0x43555350
/-- Bytes 4 to 27 of the header (14 Table 14.5). -/
def EpochBuffer.fields (b : EpochBuffer) : Bytes :=
  be 4 b.number ++ be 8 b.jsn ++ be 4 b.length ++ be 1 b.writer ++ [0, 0, 0] ++ be 4 (crc32c b.bytes)
/-- The 32 bytes of the header: HEADER_CRC is that of the complete header. -/
def EpochBuffer.header (b : EpochBuffer) : Bytes :=
  be 4 (if b.magic then epochMagic else 0) ++ b.fields ++ be 4 (crc32c (be 4 epochMagic ++ b.fields))

/-- Writes a whole epoch into the buffer that does not hold the newest complete one (14 R337). -/
def writeEpoch (s : State) : State :=
  let target := s.epochTarget
  let s := overwriteGroup (epochBase target / 4) ((epochBase target + epochSize) / 4) s
  { s with cu := { s.cu with
      buffers := tput s.cu.buffers target
        { complete := true, magic := true, boot := s.cmd.bootId, number := s.cu.nextEpoch, jsn := s.newestJsn,
          writer := s.cu.holder, body := s.epochBody }
      nextEpoch := s.cu.nextEpoch + 1
      copying := none } }

/-- Writes a command store record (14 R335). -/
def writeStore (r : StoreRecord) (s : State) : State :=
  let kept := trimStore storeSize (r :: s.cu.store)
  let lost := s.cu.store.drop (kept.length - 1)
  { s with cu := { s.cu with store := kept, storeLost := lost.foldl (fun m x => max m x.jsn) s.cu.storeLost } }

/-- A command whose record would overwrite one above the newest complete epoch's EPOCH_JSN waits, counted, until the holder has
written a new epoch, which falls before it (14 R336, R337). -/
def storeRoom (params : Bytes) (s : State) : State :=
  let epochJsn := match s.newestEpoch with | some b => b.jsn | none => 0
  let r : StoreRecord := { jsn := s.cmd.nextJsn, digest := 0, params := params }
  let kept := trimStore storeSize (r :: s.cu.store)
  if (s.cu.store.drop (kept.length - 1)).any fun x => decide (epochJsn < x.jsn) then
    let s := writeEpoch s
    { s with cu := { s.cu with storeWaits := satInc 32 s.cu.storeWaits } }
  else s

/-- The bytes of an origin under DIGEST. -/
def originBytes (o : Origin) : Bytes := be 1 (transportCode o.transport) ++ be 4 o.ip ++ be 2 o.port

/-- The digest of the command-visible state (14 R341): the Numin packet check over the runtime layer, the slot states, the session
table, the time bases' configuration, which the runtime layer holds, the alarms and the DMA host table. The encoding is the model's
(DESIGN CHOICE, log entry 9). -/
def State.digest (s : State) : Nat :=
  crc32c ((s.set.runtime.flatMap fun e => be 2 e.1 ++ be 8 e.2) ++
    ((List.range 3).flatMap fun i => be 1 (s.slot i).state.ctorIdx) ++
    (s.cmd.sessions.flatMap fun e => be 1 e.1 ++ be 1 (b2n e.2.isOpen + 2 * b2n e.2.controller) ++ be 2 e.2.incarnation ++
      be 4 e.2.high ++ (match e.2.origin with | some o => originBytes o | none => [])) ++
    (s.alarms.flatMap fun e => be 1 e.1 ++ be 14 e.2.time ++ be 8 e.2.period ++ be 1 e.2.mask ++ be 1 e.2.groups) ++
    ((s.bus.sram.filter fun e => decide (e.1 < 0x20000)).flatMap fun e => be 4 e.1 ++ [e.2]) ++
    (s.dma.inline.flatMap fun e => be 2 e.1 ++ be 2 e.2.length ++ e.2))

end Sys2Proof.Machine
end

