-- ==== Sys2Proof/Machine/Numin.lean ====
section
/-! DEFINITION. The Numin protocol: opcodes and their classes, packets, replies, sessions, the reply cache, the check order
and pending commands (13_command_protocol.md R301 to R317, R323, R324, R445). -/

namespace Sys2Proof.Machine

/-! ### Opcodes (13 Tables 13.6 to 13.9) -/

/-- The opcodes, by name. -/
inductive Op where
  | hello | identify | goodbye | echo | getSetting | setSetting | commitPreset | revertSetting | listSettings | getState
  | enterPowerState | resume | loadProgramme | validateProgramme | armProgramme | haltProgramme | tbConfigure | tbStep
  | tbRestep | tbStatus | tbAlarm | portConfigure | portStatus | laneLoopback | laneEye | dmaSubmit | dmaLink | dmaStop
  | hbmStatus | hbmThaw | captureFreeze | captureDump | eventsRead | eventsClear | faultRecordRead | eventRoute
  | journalRead | journalMark | cuStatus | cuSwitchover | cuHealth | cuResync | calConfigure | calQueue | calStrobe
  | peek | poke | selftest | imageWrite | imageVerify | imageActivate
  deriving DecidableEq, Repr

/-- OPCODE values, in the order of `Op`. -/
def opCodes : List (Nat × Op) :=
  [(0x0001, .hello), (0x0002, .identify), (0x0003, .goodbye), (0x0004, .echo), (0x0101, .getSetting),
   (0x0102, .setSetting), (0x0103, .commitPreset), (0x0104, .revertSetting), (0x0105, .listSettings),
   (0x0201, .getState), (0x0202, .enterPowerState), (0x0203, .resume)] ++
  [(0x0301, .loadProgramme), (0x0302, .validateProgramme), (0x0303, .armProgramme), (0x0304, .haltProgramme),
   (0x0401, .tbConfigure), (0x0402, .tbStep), (0x0403, .tbRestep), (0x0404, .tbStatus), (0x0405, .tbAlarm),
   (0x0501, .portConfigure), (0x0502, .portStatus), (0x0503, .laneLoopback), (0x0504, .laneEye)] ++
  [(0x0601, .dmaSubmit), (0x0602, .dmaLink), (0x0603, .dmaStop), (0x0604, .hbmStatus), (0x0605, .hbmThaw),
   (0x0606, .captureFreeze), (0x0607, .captureDump), (0x0701, .eventsRead), (0x0702, .eventsClear),
   (0x0703, .faultRecordRead), (0x0704, .eventRoute), (0x0801, .journalRead), (0x0802, .journalMark),
   (0x0901, .cuStatus), (0x0902, .cuSwitchover), (0x0903, .cuHealth), (0x0904, .cuResync)] ++
  [(0x0A01, .calConfigure), (0x0A02, .calQueue), (0x0A03, .calStrobe), (0x0B01, .peek), (0x0B02, .poke),
   (0x0B03, .selftest), (0x0C01, .imageWrite), (0x0C02, .imageVerify), (0x0C03, .imageActivate)]

/-- OPCODE of an operation. -/
def Op.code (op : Op) : Nat := match opCodes.find? fun e => e.2 == op with | some e => e.1 | none => 0

/-- The operation of an OPCODE; none where the tables define none. -/
def opOf (code : Nat) : Option Op := (opCodes.find? fun e => e.1 == code).map (·.2)

/-- Class S: accepted with session 0. -/
def Op.classS : Op → Bool
  | .hello | .identify | .echo => true
  | _ => false

/-- Class R: read-only and not journaled. -/
def Op.classR : Op → Bool
  | .identify | .echo | .getSetting | .listSettings | .getState | .tbStatus | .portStatus | .laneEye | .hbmStatus
  | .eventsRead | .faultRecordRead | .journalRead | .cuStatus | .cuHealth | .peek => true
  | _ => false

/-- Class B: served by the standby. -/
def Op.classB : Op → Bool
  | .identify | .echo | .journalRead | .cuStatus | .cuHealth => true
  | _ => false

/-- Class A: served by the always-on responder. -/
def Op.classA : Op → Bool
  | .hello | .identify | .goodbye | .echo | .getSetting | .getState | .enterPowerState | .eventsRead | .eventsClear
  | .faultRecordRead | .journalRead | .journalMark => true
  | _ => false

/-- Step 9 of Table 13.4: PARAM_LENGTH allowed for the opcode. -/
def Op.lengthOk (op : Op) (p : Bytes) : Bool :=
  let n := p.length
  match op with
  | .identify | .goodbye | .resume | .hbmThaw | .eventsRead | .cuStatus | .cuSwitchover => n == 0
  | .hello => n == 20
  | .echo => 1 ≤ n && n ≤ 8950
  | .getSetting | .revertSetting | .enterPowerState | .validateProgramme | .portStatus | .laneLoopback | .laneEye
  | .dmaStop | .hbmStatus | .captureFreeze | .faultRecordRead | .eventRoute | .cuHealth | .cuResync | .calStrobe
  | .imageVerify | .imageActivate => n == 4
  | .setSetting | .armProgramme | .haltProgramme | .journalRead | .peek => n == 12
  | .commitPreset => 4 ≤ n && n == 4 + 2 * fld p 2 2
  | .listSettings | .getState | .tbConfigure | .portConfigure | .dmaLink | .journalMark | .selftest => n == 8
  | .loadProgramme => if fld p 0 1 = 1 then 17 ≤ n && n ≤ 8208 else 9 ≤ n && n ≤ 8200
  | .tbStep | .tbRestep => n == 14
  | .tbStatus => n == 2
  | .tbAlarm => n == 24
  | .dmaSubmit => 8 ≤ n && 8 + 32 * fld p 4 2 ≤ n && n ≤ 8960
  | .captureDump | .calConfigure => n == 28
  | .eventsClear => n == 128
  | .calQueue => 4 ≤ n && n == 4 + 2 * fld p 2 2
  | .poke => 12 ≤ n && n == 12 + 4 * fld p 2 2
  | .imageWrite => 9 ≤ n && n ≤ 8200

/-! ### Statuses and counters -/

/-- Status codes (13 Table 13.5). -/
def Status.code : Status → Nat
  | .ok => 0x00
  | .acceptedPending => 0x01
  | .badHeader => 0x10
  | .badCheck => 0x11
  | .badOpcode => 0x12
  | .badLength => 0x13
  | .badParam => 0x14
  | .badState => 0x15
  | .notActiveUnit => 0x16
  | .busy => 0x17
  | .refused => 0x18
  | .staleSequence => 0x19
  | .noSession => 0x1A
  | .hwFault => 0x20
  | .frozen => 0x21

/-- The counters of R324 in its order; the replies by status follow `badLength` in the order of Table 13.5. -/
inductive CmdCtr where
  | received | sent | cachedResent | unsolicited | silentDrops | badHeader | badCheck | noSession | stale | badOpcode
  | badLength

/-- Counts one more at index `i` of a transport's counters. -/
def bumpAt (t : Transport) (i : Nat) (s : State) : State :=
  { s with cmd := { s.cmd with counters := tmod s.cmd.counters (64 * transportCode t + i) 0 (satInc 32) } }

/-- Counts one more of a transport's named counters. -/
def bumpCmd (t : Transport) (c : CmdCtr) (s : State) : State := bumpAt t c.ctorIdx s

/-- Index of the replies counted by a status. -/
def statusCtr (st : Status) : Nat := 11 + st.ctorIdx
/-- Index of the sessions opened. -/
def openedCtr : Nat := 26
/-- Index of the sessions closed. -/
def closedCtr : Nat := 27
/-- Index of the sessions expired. -/
def expiredCtr : Nat := 28
/-- Index of the packets dropped at a full command queue. -/
def queueDropCtr : Nat := 29
/-- Index of the packets with RETRANSMIT set (13 Table 13.3), which no selector returns. -/
def retransmitCtr : Nat := 31
/-- Index of the packets that waited while no interpreter served. -/
def waitedCtr : Nat := 30

/-- A protocol violation by the host: counted, and EV_CMD_VIOLATION (13 R323). -/
def violation (t : Transport) (c : CmdCtr) (s : State) : State := raise 960 (bumpCmd t c s)

/-! ### Packets -/

/-- A whole Numin packet: header, parameters and trailer (13 R303). -/
def numinPacket (version flags seq session opcode : Nat) (params : Bytes) : Bytes :=
  let head := be 2 0x6E4D ++ be 1 version ++ be 1 flags ++ be 4 seq ++ be 2 session ++ be 2 opcode ++ be 2 params.length
  let body := head ++ be 2 (crc16 head) ++ params
  body ++ be 4 (crc32c body)

/-- The bytes of a reply: the header of its command with REPLY and FINAL set, the 10-byte prefix, then the reply parameters
(13 R304). -/
def Reply.bytes (r : Reply) : Bytes :=
  numinPacket r.version (r.flags / 16 * 16 + r.flags % 8 / 2 * 2 + 1 + 8 * b2n r.final) r.seq r.session r.opcode
    (be 1 r.status.code ++ [0] ++ be 8 r.jsn ++ r.params)

/-- Header FLAGS of a command (13 Table 13.3). -/
def hdrFlags (h : CmdHdr) : Nat := 2 * b2n h.retransmit + 4 * b2n h.toStandby

/-- Puts a reply on its way: to the Management Port or the half-port the command came in on, or into the Sideband's reply
buffer (13 R301, R322; 04 R78). -/
def transmitReply (r : Reply) (s : State) : State :=
  match r.origin.transport with
  | .managementPort =>
    if s.mp.state == .up then
      sendUdp 255 r.origin.mac r.origin.tag 0 r.origin.ip (s.eff 0x0304) r.origin.port r.bytes s
    else s
  | .halfPort =>
    if s.ethUp r.origin.hp then
      sendUdp r.origin.hp r.origin.mac r.origin.tag 0 r.origin.ip (s.eff 0x0304) r.origin.port r.bytes s
    else s
  | .sideband =>
    { s with cmd := { s.cmd with
        sideband := { s.cmd.sideband with reply := r.bytes, replyPos := 0, ready := true, busy := false } } }

/-- Sends a reply and counts it by status (13 R324). -/
def sendReply (r : Reply) (s : State) : State :=
  transmitReply r (bumpAt r.origin.transport (statusCtr r.status) (bumpCmd r.origin.transport .sent s))

/-! ### Sessions and the reply cache (13 R307, R308) -/

/-- Session slot `i`. -/
def State.session (s : State) (i : Nat) : Session := tget s.cmd.sessions i {}

/-- Changes session slot `i`. -/
def State.onSession (s : State) (i : Nat) (f : Session → Session) : State :=
  { s with cmd := { s.cmd with sessions := tput s.cmd.sessions i (f (s.session i)) } }

/-- The id of a session: slot in bits [2:0], incarnation in bits [15:3] (13 R308). -/
def Session.id (x : Session) (slot : Nat) : Nat := x.incarnation * 8 + slot

/-- Whether two packets come from one source on one transport (13 R308): source IPv4 address and UDP port, or the Sideband. -/
def sameSource (a b : Origin) : Bool :=
  a.transport == b.transport && (a.transport == .sideband || (a.ip == b.ip && a.port == b.port))

/-- The slot of an open session with this id, bound to this transport and source (13 Table 13.4 step 5). -/
def State.findSession (s : State) (id : Nat) (o : Origin) : Option Nat :=
  let x := s.session (id % 8)
  if x.isOpen && x.incarnation == id / 8 && (match x.origin with | some b => sameSource b o | none => false)
  then some (id % 8) else none

/-- The cached entry of a SEQ. -/
def Session.cached (x : Session) (seq : Nat) : Option CacheEntry := x.cache.find? fun e => e.seq == seq

/-- Whether every one of the 16 entries is held by a pending command (13 R307). -/
def Session.cacheStuck (x : Session) : Bool := decide (16 ≤ x.cache.length) && x.cache.all fun e => e.pending

/-- How far a SEQ lies behind H. -/
def Session.behind (x : Session) (seq : Nat) : Nat := (x.high + 2 ^ 32 - seq) % 2 ^ 32

/-- Frees, where all 16 entries are in use, the entry that became newest longest ago among those not pending (13 R307). -/
def Session.makeRoom (x : Session) : Session :=
  if x.cache.length < 16 then x
  else match x.cache.find? fun e => !e.pending with
    | none => x
    | some e =>
      { x with cache := dropFirst (fun e => !e.pending) x.cache
               freed := match x.freed with
                 | some f => if x.behind e.seq < x.behind f then some e.seq else some f
                 | none => some e.seq }

/-- Consumes a SEQ with its reply: H becomes it, and the reply takes the newest entry (13 R306, R307). -/
def Session.consume (x : Session) (seq : Nat) (isPending : Bool) (r : Reply) : Session :=
  { x.makeRoom with high := seq, cache := x.makeRoom.cache ++ [{ seq := seq, pending := isPending, reply := r }] }

/-- Replaces the entry of a pending command by its final reply, as the newest entry (13 R311). -/
def Session.complete (x : Session) (seq : Nat) (r : Reply) : Session :=
  { x with cache := (x.cache.filter fun e => e.seq != seq) ++ [{ seq := seq, pending := false, reply := r }] }

/-- OLDEST_CACHED: the lowest SEQ s0 such that every SEQ consumed from s0 to H has an entry (13 R307), so the lowest entry
above the nearest freed SEQ. -/
def Session.oldestCached (x : Session) : Nat :=
  x.cache.foldl (fun m e =>
    let above : Bool := match x.freed with | some f => decide (x.behind e.seq < x.behind f) | none => true
    if above = true ∧ x.behind m < x.behind e.seq then e.seq else m) x.high

/-- Closes a session slot (13 R310). -/
def Session.close (x : Session) : Session :=
  { x with isOpen := false, origin := none, controller := false, helloReply := none, cache := [], freed := none }

/-! ### The check order (13 Table 13.4) -/

/-- What a command handler reads: header, opcode, parameters and the serving unit (0 A, 1 B, 2 responder). -/
structure Ctx where
  hdr : CmdHdr
  op : Op
  p : Bytes
  unit : Nat

/-- What steps 10 to 12 of Table 13.4 make of a command. -/
inductive Verdict where
  /-- A step fails: the status and the reply parameters that R304 gives it. -/
  | reject (st : Status) (params : Bytes)
  /-- A step fails that leaves a mark behind (12 Table 12.4). -/
  | rejectWith (st : Status) (act : State → State)
  /-- The command completes: its effect and the reply parameters. -/
  | done (act : State → State × Bytes)
  /-- The command completes, but its effect goes on: it replies, with the parameters settled then, once that has ended
  (17 R396). -/
  | awaits (act : State → State)
  /-- The command is under way (13 R311): its background work, its immediate effect, and what follows once its reply has been
  sent, a completion at once or an epoch, which falls between two commands (14 R337). -/
  | later (work : PendingWork) (act : State → State) (after : State → State := id)

/-- A rejection with the prefix alone. -/
def Verdict.no (st : Status) : Verdict := .reject st []

/-- A completion without reply parameters. -/
def Verdict.did (act : State → State) : Verdict := .done fun s => (act s, [])

/-- A completion that changes nothing but replies. -/
def Verdict.answer (params : Bytes) : Verdict := .done fun s => (s, params)

/-- The reply of a command. -/
def Ctx.reply (c : Ctx) (st : Status) (jsn : Nat) (params : Bytes) : Reply :=
  { origin := c.hdr.origin, flags := hdrFlags c.hdr, seq := c.hdr.seq.toNat, session := c.hdr.session.toNat,
    opcode := c.op.code, final := decide (st ≠ .acceptedPending), status := st, jsn := jsn, params := params }

/-- DETAIL of a command's entry (13, under Table 13.11). -/
def Ctx.detail (c : Ctx) : Bytes :=
  if c.op = .setSetting then slice c.p 0 2 ++ slice c.p 6 6 else c.p.take 8

/-- Writes the COMMAND, or MARK, entry of a journaled command and its command store record (13 R319, 14 R335). -/
def journalCommand (c : Ctx) (st : Status) (s : State) : State :=
  if c.op.classR then s
  else
    let s := storeRoom c.p s
    let jsn := s.cmd.nextJsn
    let s := writeEntry (if c.op = .journalMark then .mark else .command) c.hdr.session.toNat c.hdr.seq.toNat c.op.code
      st.code c.unit (if c.p = [] then 0 else crc32c c.p) c.p.length (transportCode c.hdr.origin.transport)
      (if c.op = .journalMark then c.p else c.detail) s
    writeStore { jsn := jsn, digest := 0, params := c.p } s

/-- The trigger write of a command, where the spec gives its register (14 R335): CAL_STROBE the strobe register, DMA_LINK LINK_NEW of
its channel (18 R410, 12 R297); address 0 where there is none or its register is not given (log entry 155). -/
def Ctx.trigger (c : Ctx) : Nat × Nat :=
  match c.op with
  | .calStrobe => (0x20054000, fld c.p 0 1)
  | .dmaLink => (0x20090010 + 0x20 * fld c.p 0 1, fld c.p 4 2)
  | _ => (0, 0)

/-- The last step of a journaled command: the commit registers take its trigger write and its JSN, and EFFECT_JSN covers its entry
(14 R335). -/
def commitEffect (c : Ctx) (jsn : Nat) (s : State) : State :=
  if c.op.classR then s
  else { s with cu := { s.cu with
    commitAddr := c.trigger.1, commitData := c.trigger.2, commitJsnHi := jsn / 2 ^ 32, effectJsn := jsn } }

/-- After a journaled command its store record carries the digest (14 R341). -/
def sealDigest (c : Ctx) (jsn : Nat) (s : State) : State :=
  if c.op.classR then s
  else
    let d := s.digest
    { s with cu := { s.cu with
        store := match s.cu.store with
          | r :: rs => if r.jsn = jsn then { r with digest := d } :: rs else s.cu.store
          | [] => [] } }

/-- Caches a reply under the command's session and sends it. -/
def settle (slot : Option Nat) (isPending : Bool) (r : Reply) (s : State) : State :=
  let s := match slot with
    | some i => s.onSession i fun x => x.consume r.seq isPending r
    | none => s
  sendReply r s

/-- Counts a closed or expired session and closes its slot (13 R310, R324). -/
def closeSession (ctr slot : Nat) (s : State) : State :=
  let s := match (s.session slot).origin with
    | some o => bumpAt o.transport ctr s
    | none => s
  s.onSession slot Session.close

/-- After the reply of a command that completed: GOODBYE closes the session, and the session that a HELLO opened keeps its
reply, as the entry of the HELLO's SEQ (13 R308, R310 and Table 13.12). -/
def closeOrOpen (c : Ctx) (slot : Option Nat) (r : Reply) (s : State) : State :=
  match c.op, slot with
  | .goodbye, some i => closeSession closedCtr i s
  | .hello, _ => s.onSession (fld r.params 0 2 % 8) fun x =>
      { x with helloReply := some r, cache := [{ seq := r.seq, pending := false, reply := r }] }
  | _, _ => s

/-- Whether the standby has committed the epoch of a planned switchover: no command runs until the release (14 R344). -/
def State.releaseDue (s : State) : Bool := match s.cu.switchover with | some w => w.committed | none => false

/-- Who interprets commands now: the holder of the baton, the always-on responder (2), or nobody while the baton passes,
a holder restores state or has its last epoch committed before a switchover, a command's effect goes on, or the device is held in
reset (13 R312, R315, R445; 14 R344). -/
def State.server (s : State) : Option Nat :=
  if s.boot.porstLow || s.cmd.awaited.isSome then none
  else if s.cu.held then
    if !s.cu.passing && (s.unit s.cu.holder).state == .active && s.cu.copying.isNone && !s.releaseDue then some s.cu.holder else none
  else if s.cu.passing then none
  else some 2

/-- Where no interpreter serves any more, the packets of the command queue wait for one, counted once each (13 R324, R445). -/
def serverGone (s : State) : State :=
  if s.server.isSome then s
  else
    let s := s.cmd.queue.foldl (fun s q => if q.waited then s else bumpAt q.origin.transport waitedCtr s) s
    { s with cmd := { s.cmd with queue := s.cmd.queue.map fun q => { q with waited := true } } }

/-- The JSN that a command's reply carries: its own entry's, or, of a command that writes none, the newest (13 R304). -/
def Ctx.jsn (c : Ctx) (s : State) : Nat := if c.op.classR then s.newestJsn else s.cmd.nextJsn

/-- The pending command of a context. -/
def Ctx.pendingOf (c : Ctx) (work : PendingWork) : PendingCommand :=
  { session := c.hdr.session.toNat, seq := c.hdr.seq.toNat, opcode := c.op.code, origin := c.hdr.origin,
    paramLength := c.p.length, digest := if c.p = [] then 0 else crc32c c.p, work := work }

/-- Adds a pending command. -/
def addPending (x : PendingCommand) (s : State) : State := { s with cmd := { s.cmd with pending := s.cmd.pending ++ [x] } }

/-- Carries a verdict out: a rejected command writes no entry; an accepted one is journaled before its effect, and its
reply is cached and sent after it (13 R304, R306, R319; 14 R335). -/
def carryOut (c : Ctx) (slot : Option Nat) (v : Verdict) (s : State) : State :=
  match v with
  | .reject st params => settle slot false (c.reply st s.newestJsn params) s
  | .rejectWith st act => settle slot false (c.reply st s.newestJsn []) (act s)
  | .done act =>
    let jsn := c.jsn s
    let (s, params) := act (journalCommand c .ok s)
    let s := settle slot false (c.reply .ok jsn params) (commitEffect c jsn s)
    sealDigest c jsn (closeOrOpen c slot (c.reply .ok jsn params) s)
  | .awaits act =>
    let jsn := c.jsn s
    let s := sealDigest c jsn (commitEffect c jsn (act (journalCommand c .ok s)))
    serverGone { s with cmd := { s.cmd with awaited := some (slot, c.reply .ok jsn []) } }
  | .later work act after =>
    let jsn := c.jsn s
    let s := commitEffect c jsn (act (addPending (c.pendingOf work) (journalCommand c .acceptedPending s)))
    after (sealDigest c jsn (settle slot true (c.reply .acceptedPending jsn []) s))

/-- The command that waits for its effect to end replies (17 R396). -/
def endAwaited (st : Status) (params : Bytes) (s : State) : State :=
  match s.cmd.awaited with
  | some (slot, r) =>
    settle slot false { r with status := st, params := params } { s with cmd := { s.cmd with awaited := none } }
  | none => s

/-- The reply of steps 3 to 8, whose opcode need not be defined. -/
def bareReply (h : CmdHdr) (opcode : Nat) (st : Status) (jsn : Nat) (params : Bytes) : Reply :=
  { origin := h.origin, flags := hdrFlags h, seq := h.seq.toNat, session := h.session.toNat, opcode := opcode,
    final := true, status := st, jsn := jsn, params := params }

/-- The unit that answers with TO_STANDBY set: the other unit, where it runs as a standby (13 R314). -/
def State.standby (s : State) : Option Nat :=
  let u := 1 - s.cu.holder
  match (s.unit u).state with
  | .standby | .isolated => some u
  | _ => none

/-- Whether the recovery firmware runs (19 R414). -/
def State.recovery (s : State) : Bool := s.boot.copy == 2

/-- Step 10 of Table 13.4: the role of R309, then whether the opcode is served in the current condition (R315, R382, R414).
None where the command may proceed. -/
def conditionCheck (c : Ctx) (slot : Option Nat) (s : State) : Option Status :=
  let role := match slot with | some i => (s.session i).controller | none => true
  let clears := match c.op with
    | .getState => bit (fld c.p 1 1) 0
    | .portStatus => bit (fld c.p 1 1) 0
    | .faultRecordRead => bit (fld c.p 2 1) 0
    | _ => false
  if !role && (!c.op.classR || clears) then some .refused
  else if c.unit = 2 && (!c.op.classA || (c.op = .getState && fld c.p 0 1 ≠ 0)) then some .badState
  else if c.unit ≠ 2 && s.recovery && !(c.op.classS || c.op.classA ||
      [.listSettings, .setSetting, .peek, .imageWrite, .imageVerify, .imageActivate].contains c.op) then some .badState
  else if c.unit ≠ 2 && s.recovery && c.op = .getState && fld c.p 0 1 ≠ 0 then some .badState
  else if (c.op = .armProgramme ∨ c.op = .loadProgramme) ∧ s.pwr.state ≠ .active ∧ s.pwr.busy = false then some .badState
  else if s.pwr.busy && !(c.op.classR || [.eventsClear, .journalMark, .faultRecordRead].contains c.op) then some .busy
  else none

/-- What a reply of step 10 carries after its prefix: ENTER_POWER_STATE answered with REFUSED carries RESULT, BLOCK and CODE,
and no transition gives them a value other than 0 (13 R304; log entry 42). -/
def refusalParams (op : Op) (st : Status) : Bytes :=
  if op = .enterPowerState ∧ st = .refused then [0, 0, 0, 0] else []

/-- Steps 7 to 12 for a defined or undefined opcode, with the session slot that step 5 found. -/
def interpret (handle : Ctx → State → Verdict) (unit : Nat) (h : CmdHdr) (opcode : Nat) (p : Bytes) (passing : Bool)
    (slot : Option Nat) (s : State) : State :=
  let t := h.origin.transport
  let server := if h.toStandby then s.standby else some unit
  let refusedUnit := passing || server.isNone ||
    (h.toStandby && (match opOf opcode with | some op => !op.classB | none => true))
  if refusedUnit then sendReply (bareReply h opcode .notActiveUnit s.newestJsn []) (raise 960 s)
  else
    match opOf opcode with
    | none =>
      let s := violation t .badOpcode s
      settle slot false (bareReply h opcode .badOpcode s.newestJsn []) s
    | some op =>
      let c : Ctx := { hdr := h, op := op, p := p, unit := server.getD unit }
      if !op.lengthOk p then
        let s := violation t .badLength s
        settle slot false (c.reply .badLength s.newestJsn []) s
      else match conditionCheck c slot s with
        | some st => carryOut c slot (.reject st (refusalParams op st)) s
        | none => carryOut c slot (handle c s) s

/-- The reply of the HELLO that opened a session still open, from this source with this SEQ (13 R308). -/
def State.resentHello (s : State) (h : CmdHdr) : Option Reply :=
  (List.range 8).findSome? fun i =>
    let x := s.session i
    if x.isOpen && x.helloSeq == h.seq.toNat && (match x.origin with | some o => sameSource o h.origin | none => false)
    then x.helloReply else none

/-- Steps 5 and 6, then the rest (13 R305 to R308). A cached reply goes back as the packet that asks again came (13 R301). -/
def checkSession (handle : Ctx → State → Verdict) (unit : Nat) (h : CmdHdr) (opcode : Nat) (p : Bytes) (passing : Bool)
    (s : State) : State :=
  let t := h.origin.transport
  let s := if h.retransmit then bumpAt t retransmitCtr s else s
  let id := h.session.toNat
  if id = 0 then
    if (match opOf opcode with | some op => op.classS | none => false) then
      match (if opOf opcode = some .hello then s.resentHello h else none) with
      | some r => sendReply { r with origin := h.origin } (bumpCmd t .cachedResent s)
      | none => interpret handle unit h opcode p passing none s
    else
      let s := violation t .noSession s
      sendReply (bareReply h opcode .noSession s.newestJsn []) s
  else match s.findSession id h.origin with
    | none =>
      let s := violation t .noSession s
      sendReply (bareReply h opcode .noSession s.newestJsn []) s
    | some slot =>
      let x := s.session slot
      let seq := h.seq.toNat
      match x.cached seq with
      | some e => sendReply { e.reply with origin := h.origin } (bumpCmd t .cachedResent s)
      | none =>
        let d := (seq + 2 ^ 32 - x.high) % 2 ^ 32
        if 1 ≤ d ∧ d ≤ 2 ^ 31 - 1 then
          if x.cacheStuck then sendReply (bareReply h opcode .busy s.newestJsn []) s
          else interpret handle unit h opcode p passing (some slot) s
        else
          let s := violation t .stale s
          sendReply (bareReply h opcode .staleSequence s.newestJsn (be 4 x.high ++ be 4 x.oldestCached)) s

/-- Steps 3 and 4 for a packet taken from the command queue, then the rest (13 Table 13.4). -/
def servePacket (handle : Ctx → State → Verdict) (unit : Nat) (q : QueuedPacket) (s : State) : State :=
  let b := q.bytes
  let flags := fld b 3 1
  let h : CmdHdr := { origin := q.origin, retransmit := bit flags 1, toStandby := bit flags 2,
                      seq := BitVec.ofNat 32 (fld b 4 4), session := BitVec.ofNat 16 (fld b 8 2) }
  let opcode := fld b 10 2
  let n := fld b 12 2
  let t := q.origin.transport
  if !(fld b 2 1 == 1 && !bit flags 0 && flags / 16 == 0 && 20 + n == b.length) then
    let s := violation t .badHeader s
    sendReply { bareReply h opcode .badHeader s.newestJsn [] with flags := flags, version := fld b 2 1 } s
  else if fld b (16 + n) 4 ≠ crc32c (b.take (16 + n)) then
    let s := violation t .badCheck s
    sendReply (bareReply h opcode .badCheck s.newestJsn []) s
  else checkSession handle unit h opcode (slice b 16 n) q.passing s

/-- The front end: steps 1 and 2, then the command queue of 64 packets with the PASSING mark (13 R305, R445). -/
def frontEnd (o : Origin) (b : Bytes) (s : State) : State :=
  let t := o.transport
  let s := bumpCmd t .received s
  if b.length < 20 ∨ 8980 < b.length ∨ fld b 0 2 ≠ 0x6E4D ∨ fld b 14 2 ≠ crc16 (b.take 14) then
    violation t .silentDrops s
  else if 64 ≤ s.cmd.queue.length then bumpAt t queueDropCtr s
  else
    serverGone { s with cmd := { s.cmd with
      queue := s.cmd.queue ++ [{ origin := o, bytes := b, passing := s.cu.passing, waited := false }] } }

/-- The next packet of the command queue is served, where an interpreter serves (13 R312, R445). -/
def serveNext (handle : Ctx → State → Verdict) (s : State) : State :=
  match s.server, s.cmd.queue with
  | some u, q :: rest => servePacket handle u q { s with cmd := { s.cmd with queue := rest } }
  | _, _ => s

/-- One command of a Numin row: it arrives with a good header and trailer on a transport that carries commands now (01 R16)
and, where an interpreter serves and no packet waits before it, is served at once; otherwise it waits in the queue (13 R312,
R445). On any other transport it does not reach the device. -/
def numinCommand (handle : Ctx → State → Verdict) (op : Op) (h : CmdHdr) (p : Bytes) (s : State) : State :=
  if !s.carries h.origin then s
  else match s.server, s.cmd.queue with
  | some u, [] => checkSession handle u h op.code p false (bumpCmd h.origin.transport .received s)
  | _, _ => frontEnd h.origin (numinPacket 1 (hdrFlags h) h.seq.toNat h.session.toNat op.code p) s

/-! ### Completion of pending commands (13 R311) -/

/-- A pending command completes with a final status and reply parameters: the cached reply is replaced, a COMPLETION
entry is written, and with CMD_UNSOLICITED the final reply is sent once on UDP transports. -/
def finishPending (c : PendingCommand) (st : Status) (params : Bytes) (s : State) : State :=
  let unit := if s.cu.held then s.cu.holder else 2
  let s := { s with cmd := { s.cmd with pending := dropFirst (fun x => x == c) s.cmd.pending } }
  let jsn := s.cmd.nextJsn
  let s := writeEntry .completion c.session c.seq c.opcode st.code unit c.digest c.paramLength
    (transportCode c.origin.transport) params s
  match s.findSession c.session c.origin with
  | none => s
  | some slot =>
    let old := (s.session slot).cached c.seq
    let r : Reply := { origin := c.origin, flags := (match old with | some e => e.reply.flags | none => 0), seq := c.seq,
                       session := c.session, opcode := c.opcode, final := true, status := st,
                       jsn := (match opOf c.opcode, old with
                         | some .laneEye, _ => jsn
                         | _, some e => e.reply.jsn
                         | _, none => jsn)
                       params := params }
    let s := s.onSession slot fun x => x.complete c.seq r
    if s.eff 0x0122 == 1 && c.origin.transport != .sideband then
      sendReply r (bumpCmd c.origin.transport .unsolicited s)
    else s

/-- Completes the first pending command whose work fits. -/
def finishWork (p : PendingWork → Bool) (st : Status) (params : Bytes) (s : State) : State :=
  match s.cmd.pending.find? fun c => p c.work with
  | some c => finishPending c st params s
  | none => s

/-- Completes every pending command whose work fits, oldest first. -/
def finishAll (p : PendingWork → Bool) (st : Status) (params : Bytes) (s : State) : State :=
  (s.cmd.pending.filter fun c => p c.work).foldl (fun s c => finishPending c st params s) s

/-- Whether a pending command's work fits. -/
def State.working (s : State) (p : PendingWork → Bool) : Bool := s.cmd.pending.any fun c => p c.work

end Sys2Proof.Machine
end

