-- ==== Sys2Proof/Machine/ProgView.lean ====
section
/-! DEFINITION. What other blocks read of the programmes: the quantities of an image and the slots that hold the datapath
(02 R34; 03 R56; 07 R158, R162, R169; 11 R248). -/

namespace Sys2Proof.Machine

/-- R of 02 R34: 2 for real input, 1 for complex. -/
def Programme.r (p : Programme) : Nat := if bit p.format 0 then 1 else 2
/-- Digitiser samples per orbit, T = N R S C (02 R34). -/
def Programme.t (p : Programme) : Nat := p.n * p.r * p.slices * p.c
/-- The paths of the programme, P = 16 G (11 Table 11.2). -/
def Programme.pathCount (p : Programme) : Nat := 16 * p.groups
/-- The owned slices in ascending order (07 R159). -/
def Programme.owned (p : Programme) : List Nat := (List.range p.slices).filter fun k => p.owners.getD k 0 == p.device
/-- The ring channels (07 R159). -/
def Programme.ringChannels (p : Programme) : Nat := p.owned.length * p.c
/-- Bytes per stored sample, z (07 R159). -/
def Programme.z (p : Programme) : Nat := match p.precision with | 0 => 3 | 1 => 2 | _ => 1
/-- N_INT, taken as 1 without a CORRELATION section (11 R261). -/
def Programme.nInt (p : Programme) : Nat := match p.corr with | some c => c.nInt | none => 1
/-- The region of a type other than 7, if present (07 R157). -/
def Programme.region (p : Programme) (kind : Nat) : Option ProgRegion := p.regions.find? fun r => r.kind == kind && r.size != 0

/-- The lowest bytes past the variant's HBM (00 Table 0.1). -/
def hbmCapacity (v : Variant) : Nat := stacksOf v * 24 * 2 ^ 30
/-- Where a programme slot lies (11 R247). -/
def slotBase (v : Variant) (slot : Nat) : Nat := hbmCapacity v - 512 * 2 ^ 20 + 128 * 2 ^ 20 * slot

/-- The ring depth condition of 07 R162 for a margin. -/
def ringDepthOk (p : Programme) (margin : Nat) : Bool :=
  match p.region 1 with
  | none => true
  | some r =>
    decide (2 * (p.n / 256) + r.reach / 256 + ceilDiv (ceilDiv margin (p.r * p.slices * p.c)) 256 + 1 ≤ r.depth)

/-- The shares of ports 0 to 4 and the two settings (07 R169). -/
def shareTotal (p : Programme) (cap ctrl : Nat) : Nat := p.shares.foldl (· + ·) 0 + cap + ctrl

/-- The slots that hold the device: ARMED, IN_EFFECT and RETIRING. -/
def State.heldSlots (s : State) : List ProgSlot :=
  ((List.range 3).map s.slot).filter fun x => x.state == .armed || x.state == .inEffect || x.state == .retiring

/-- The programmes of those slots. -/
def State.heldProgrammes (s : State) : List Programme := s.heldSlots.filterMap (·.prog)

/-- The half-ports a programme uses: its links and its streams (11 R252, R257). -/
def Programme.halfPorts (p : Programme) : List Nat := p.links.map (·.hp) ++ p.streams.map (·.hp)

/-- Whether an armed programme uses a half-port, itself or as the partner of a full port (03 R56). -/
def State.hpUsed (s : State) (h : Nat) : Bool :=
  s.heldProgrammes.any fun p => p.halfPorts.any fun u =>
    u == h || (cfgMode (s.hpConfig u) == 5 && u / 2 == h / 2)

/-- The programme in effect. -/
def State.inEffect (s : State) : Option Programme := match s.slotIn .inEffect with | some i => (s.slot i).prog | none => none

/-- The slot whose programme owns orbit `n`: an ARMED or IN_EFFECT one from its first orbit on, and before that the
RETIRING one (04 R84, 11 R270, R275). -/
def State.slotAt (s : State) (n : Nat) : Option Nat :=
  (List.range 3).find? fun i =>
    let x := s.slot i
    let next := ((List.range 3).filterMap fun j =>
      let y := s.slot j
      if j ≠ i ∧ (y.state = .armed ∨ y.state = .inEffect) ∧ x.swapOrbit < y.swapOrbit then some y.swapOrbit else none)
    (x.state == .armed || x.state == .inEffect || x.state == .retiring) && decide (x.swapOrbit ≤ n) && !x.haltedAtOnce &&
      (x.haltOrbit.toList ++ x.endOrbit.toList ++ next).all fun m => decide (n < m)

/-- The programme that owns orbit `n`. -/
def State.progAt (s : State) (n : Nat) : Option Programme := (s.slotAt n).bind fun i => (s.slot i).prog

/-- The generation that owns orbit `n`. -/
def State.genAt (s : State) (n : Nat) : Option Nat := match s.progAt n with | some p => some p.generation | none => none

/-- The programme of a generation that holds a slot. -/
def State.progGen (s : State) (gen : Nat) : Option Programme := s.heldProgrammes.find? fun p => p.generation == gen

/-- Whether the stages of a slot's run stop before orbit `n`: at its halt, at the swap that retired it, or at an armed one (11
R270, R275). -/
def State.runStops (s : State) (x : ProgSlot) (n : Nat) : Bool :=
  (x.haltOrbit.toList ++ x.endOrbit.toList).any (fun m => decide (m ≤ n)) ||
    (x.state == .inEffect && match s.slotIn .armed with
      | some j => decide (x.swapOrbit < (s.slot j).swapOrbit) && decide ((s.slot j).swapOrbit ≤ n)
      | none => false)

/-- The runs that the stages may be in: those of the programme in effect and of the retiring ones. -/
def State.liveRuns (s : State) : List (ProgSlot × Programme) :=
  (((List.range 3).map s.slot).filter fun x => x.state == .inEffect || (x.state == .retiring && !x.haltedAtOnce)).filterMap
    fun x => x.prog.map (x, ·)

/-- Where a stage stands: the run and its programme, and its next sample. It is the run that it is in, with the sample after its last
one, up to the end of that run; then the next run in order of those that it has a part in, from its first orbit on (11 R270). `per` is
the stage's samples an orbit. -/
def State.stageAt (s : State) (last : Nat) (after : Option Nat) (per : Programme → Nat) (part : Programme → Bool) :
    Option (Nat × Programme × Nat) :=
  match (s.liveRuns.find? fun e => e.1.run == last), after with
  | some e, some m => if s.runStops e.1 (m / per e.2) then next else some (last, e.2, m)
  | _, _ => next
where
  next := (List.range (s.prg.runs + 1 - (last + 1))).findSome? fun k =>
    (s.liveRuns.find? fun e => e.1.run == last + 1 + k && part e.2 && !s.runStops e.1 e.1.swapOrbit).map fun e =>
      (e.1.run, e.2, e.1.swapOrbit * per e.2)

/-- Whether a stage that stands after sample `after` of run `last` is past sample `m` of the run that owns orbit `n`. -/
def State.stagePast (s : State) (last : Nat) (after : Option Nat) (n m : Nat) : Bool :=
  match s.slotAt n with
  | some i =>
    let r := (s.slot i).run
    r != 0 && (decide (r < last) || (r == last && match after with | some x => decide (m ≤ x) | none => false))
  | none => false

/-- The ordinal of a path in the programme (07 R159). -/
def Programme.ordinal (p : Programme) (path : Nat) : Option Nat := p.paths.findIdx? fun r => r.path == path

/-- The ordinal of an owned slice (07 R159). -/
def Programme.sigma (p : Programme) (slice : Nat) : Option Nat := p.owned.findIdx? (· == slice)

/-- The link that carries a segment of this device to its owner (06 R129). -/
def Programme.linkFor (p : Programme) (path slice : Nat) : Option ProgLink := p.links.find? fun l => l.tx.contains (path, slice)

/-- F of 05 R101. -/
def Programme.f (p : Programme) : Nat := p.r * p.slices

/-! ### The HBM (07 R156) -/

/-- What is left of a range without the `n` addresses from `a` on. -/
def FreeRange.cut (a n : Nat) (r : FreeRange) : List FreeRange :=
  (if r.first < min r.past a then [{ r with past := min r.past a }] else []) ++
  (if max r.first (a + n) < r.past then [{ r with first := max r.first (a + n) }] else [])
/-- The free value at an address whose contents a swap left undefined (07 R158; log entry 27). -/
def freeAt (l : List FreeRange) (a : Nat) : Option Byte :=
  (l.find? fun r => decide (r.first ≤ a) && decide (a < r.past)).map fun r => Config.freeByte r.draw a
/-- A byte of the HBM; unwritten ones read 0 (log entry 2). -/
def State.hbmGet (s : State) (a : Nat) : Byte := (freeAt s.hbm.undef a).getD (memGet 0 s.hbm.mem a)
/-- Bytes of the HBM. -/
def State.hbmRead (s : State) (a n : Nat) : Bytes := (List.range n).map fun i => s.hbmGet (a + i)
/-- Writes bytes of the HBM. -/
def State.hbmWrite (s : State) (a : Nat) (b : Bytes) : State :=
  { s with hbm := { s.hbm with mem := memWrite 0 s.hbm.mem a b, undef := s.hbm.undef.flatMap (·.cut a b.length) } }

/-! ### Delay tables (05 R116, R118; 11 R247, R277) -/

/-- The bytes of the delay store, at the top of HBM (11 R247). -/
def delayStoreSize : Nat := 128 * 2 ^ 20
/-- Where the delay store lies. -/
def delayStoreBase (v : Variant) : Nat := hbmCapacity v - delayStoreSize

/-- Bytes of the delay store, which is a ring. -/
def State.storeRead (s : State) (at' n : Nat) : Bytes :=
  let base := delayStoreBase s.fuses.variant
  let o := at' % delayStoreSize
  let k := min n (delayStoreSize - o)
  s.hbmRead (base + o) k ++ s.hbmRead base (n - k)

/-- Writes bytes into the delay store. -/
def State.storeWrite (s : State) (at' : Nat) (b : Bytes) : State :=
  let base := delayStoreBase s.fuses.variant
  let o := at' % delayStoreSize
  (s.hbmWrite (base + o) (b.take (delayStoreSize - o))).hbmWrite base (b.drop (delayStoreSize - o))

/-- A delay-table entry of Table 5.3. -/
def delayRecord (b : Bytes) (o : Nat) : DelayEntry :=
  { coarse := fld b o 4, phase0 := fld b (o + 4) 4, slope := toSigned 32 (fld b (o + 8) 4)
    rate := toSigned 32 (fld b (o + 12) 4), slopeRate := toSigned 32 (fld b (o + 16) 4), flags := fld b (o + 20) 2 }

/-- Entry `k` of a segment: of the image, or from the delay store. -/
def State.segmentEntry (s : State) (g : DelaySegment) (k : Nat) : Option DelayEntry :=
  match g.place with
  | none => g.entries[k]?
  | some o => if k < g.orbitCount * g.sliceCount * g.pathCount then some (delayRecord (s.storeRead (o + 16 + 32 * k) 32) 0) else none

/-- The delay-table entry of a path ordinal, owned slice ordinal and orbit (05 R116, R118; 11 R277). -/
def State.delayEntry (s : State) (p : Programme) (orbit sigma ord : Nat) : Option DelayEntry :=
  let usable := fun (g : DelaySegment) =>
    g.firstOrbit ≤ orbit && orbit < g.firstOrbit + g.orbitCount && g.validFrom ≤ orbit
  match ((p.delay.toList ++ s.prg.segments.filter fun g => g.generation == p.generation).find? usable) with
  | some g => s.segmentEntry g (((orbit - g.firstOrbit) * g.sliceCount + sigma) * g.pathCount + ord)
  | none => none

/-- The values that an orbit opening now takes (02 R43, 06 R155). -/
def State.currentTerms (s : State) : OrbitTerms :=
  { margin := s.eff 0x0540, slackUs := s.eff 0x0543, zeroS := s.eff 0x0541, zeroNs := s.eff 0x0542, base := s.eff 0x0544,
    frameSlackUs := s.eff 0x0405 }

/-- The values that orbit `n` opened with, or would open with now. -/
def State.terms (s : State) (n : Nat) : OrbitTerms := (tfind s.orb.terms n).getD s.currentTerms

/-- Raises EV_ORB_NO_DEADLINE, once per generation, while the deadline base of an orbit open at ingest has no time (02 R42,
R43). -/
def noDeadlineCheck (s : State) : State :=
  match s.orb.oldest with
  | none => s
  | some o =>
    let idle := (List.range 4).any fun k => thas s.orb.terms (o + k) && !(s.tb (s.terms (o + k)).base).hasTime
    if idle && !s.orb.noDeadlineRaised then raise 977 { s with orb := { s.orb with noDeadlineRaised := true } } else s

/-! ### The port regulators (07 R169, R170) -/

/-- The port whose regulator and whose marks a request of a port takes: the GL-1024's DMA master has one port (07 R169). -/
def Variant.mergedPort (v : Variant) (port : Nat) : Nat := match v with | .gl1024 => if port = 3 then 2 else port | .gl2048 => port

/-- The share of a port, in 1/256 of peak; none where no programme is in effect to give one (07 Table 7.4; log entry 132). -/
def State.portShare (s : State) (port : Nat) : Option Nat :=
  match port with
  | 5 => some (s.eff 0x0704)
  | 6 => some (s.eff 0x070A)
  | _ => s.inEffect.map fun p =>
    if s.fuses.variant.mergedPort 3 = 2 ∧ (port = 2 ∨ port = 3) then p.shares.getD 2 0 + p.shares.getD 3 0 else p.shares.getD port 0

/-- The depth of every bucket, in tenths of a byte. -/
def State.bucketDepth (s : State) : Int := s.eff 0x070B * 10240

/-- What a port's bucket holds now, in tenths of a byte: it fills at share / 256 of peak, 3,276.8 or 1,638.4 bytes per core cycle. -/
def State.bucket (s : State) (port : Nat) : Int :=
  match tfind s.hbm.buckets (s.fuses.variant.mergedPort port) with
  | some b => min s.bucketDepth
      (b.tenths + (s.portShare port).getD 0 * (match s.fuses.variant with | .gl2048 => 128 | .gl1024 => 64) * (s.cycle - b.cycle : Nat))
  | none => s.bucketDepth

/-- Whether a request of `n` bytes is eligible: its port has a share, and its bucket holds the bytes, or is full where they are more
than it can hold (07 R169, R170; log entry 132). -/
def State.mayDraw (s : State) (port n : Nat) : Bool :=
  match s.portShare port with
  | some k => k != 0 && decide (min ((10 * n : Nat) : Int) s.bucketDepth ≤ s.bucket port)
  | none => true

/-- A request draws its bytes. -/
def State.draw (s : State) (port n : Nat) : State :=
  { s with hbm := { s.hbm with
      buckets := if (s.portShare port).isNone then s.hbm.buckets
        else tput s.hbm.buckets (s.fuses.variant.mergedPort port) { tenths := s.bucket port - 10 * n, cycle := s.cycle } } }

/-- The core cycles until a port's bucket holds what a request of `n` bytes needs. -/
def State.portWait (s : State) (port n : Nat) : Nat :=
  let need := min ((10 * n : Nat) : Int) s.bucketDepth - s.bucket port
  let rate := (s.portShare port).getD 0 * (match s.fuses.variant with | .gl2048 => 128 | .gl1024 => 64)
  if rate = 0 ∨ need ≤ 0 then 0 else ceilDiv need.toNat rate

/-- A request of the interpreter or of a bus access within it waits until its port's bucket is full enough (07 R170; log entry 132). -/
def State.awaitPort (port n : Nat) (s : State) : State := s.advance (s.portWait port n)

/-- The buckets as they stand, before a share or the depth changes. -/
def State.settleBuckets (s : State) : State :=
  { s with hbm := { s.hbm with buckets := s.hbm.buckets.map fun (e : Nat × Bucket) =>
      (e.1, { tenths := s.bucket e.1, cycle := s.cycle }) } }

end Sys2Proof.Machine
end

