-- ==== Sys2Proof/Machine/Ports.lean ====
section
/-! DEFINITION. Half-ports and the Management Port: training, link loss, eye figures, loopbacks, references, status and the
port commands (03_lanes_and_ports.md). -/

namespace Sys2Proof.Machine

/-! ### Training -/

/-- Whether the words of both halves of a port hold mode 5 (03 R55). -/
def State.cfgFull (s : State) (h : Nat) : Bool :=
  cfgMode (s.hpConfig (h / 2 * 2)) == 5 && cfgMode (s.hpConfig (h / 2 * 2 + 1)) == 5

/-- The half-ports that the next training takes as one: both halves of a port whose words both hold mode 5 (03 R55). -/
def State.cfgGroup (s : State) (h : Nat) : List Nat := if s.cfgFull h then [h / 2 * 2, h / 2 * 2 + 1] else [h]

/-- Whether the half-port is half of a full port: both words as of the last training hold mode 5 (03 R55, R56). -/
def State.fullPort (s : State) (h : Nat) : Bool :=
  cfgMode (s.hp (h / 2 * 2)).trained == 5 && cfgMode (s.hp (h / 2 * 2 + 1)).trained == 5

/-- The half-ports that act as one since the last training: both halves of a full port (03 R55, R57). -/
def State.hpGroup (s : State) (h : Nat) : List Nat := if s.fullPort h then [h / 2 * 2, h / 2 * 2 + 1] else [h]

/-- The partner that the next training of `h` leaves out of the full port it is in (03 R55). -/
def State.leftPartner (s : State) (h : Nat) : List Nat := (s.hpGroup h).filter fun u => !(s.cfgGroup h).contains u

/-- A mode-5 word whose partner's word holds another mode waits with its lanes OFF (03 R55). -/
def State.waitsPartner (s : State) (h : Nat) : Bool := cfgMode (s.hpConfig h) == 5 && !s.cfgFull h

/-! #### Midway blocks (06 Table 6.1) -/

/-- CRC-8 over the bits [55:8] of a control block's body (06 R133). -/
def crc8 (bs : Bytes) : Nat :=
  (bs.foldl (fun (c : Byte) b =>
    (List.range 8).foldl (fun (c : Byte) _ => if c.msb then (c <<< 1) ^^^ 0x07#8 else c <<< 1) (c ^^^ b)) 0).toNat

/-- The 7-byte body of a control block whose first six bytes are the given number. -/
def blockBody (v : Nat) : Bytes := be 6 v ++ be 1 (crc8 (be 6 v))

/-- A control block as it leaves: the sync header, the type and the body. -/
def controlBlock (type : Byte) (body : Bytes) : Bytes := 0b10#8 :: type :: body

/-- The half-port that keeps the protocol state of the link on `h`: the even one of a full port. -/
def State.linkOf (s : State) (h : Nat) : Nat := if s.fullPort h then h / 2 * 2 else h

/-- OLDEST_SEQ: the oldest sequence number in the replay buffer, or the next SEQ if it is empty (06 R139). -/
def MwLink.oldestSeq (m : MwLink) : Nat := match m.replay with | f :: _ => f.seq | [] => m.nextSeq

/-- Lane `k` of half-port `h` sends TRAIN_A and TRAIN_B (06 R137, R139). What is sent again unchanged is not recorded again (log
entry 131). -/
def trainPair (h k : Nat) (s : State) : State :=
  let full := cfgMode (s.hp h).trained == 5
  let m := (s.hp (s.linkOf h)).mw
  let lane := if full then 4 * (h % 2) + k else k
  let flags := b2n m.seenSent + 2 * b2n (!m.trainedOnce) + 4 * b2n full
  let a := lane * 2 ^ 45 + m.ownDevice % 32 * 2 ^ 40 + m.ownMesh % 2 ^ 16 * 2 ^ 24 + flags * 2 ^ 16
  let b := m.expected * 2 ^ 32 + m.oldestSeq * 2 ^ 16
  { s with sent := (h, controlBlock 0x66 (blockBody b)) :: (h, controlBlock 0x55 (blockBody a)) :: s.sent }

/-- Whether the half-port's last training took a Midway mode. -/
def HalfPort.midway (p : HalfPort) : Bool := cfgMode p.trained == 4 || cfgMode p.trained == 5

/-- Every lane of a Midway half-port sends its training blocks (06 R137). -/
def trainBlocks (h : Nat) (s : State) : State :=
  if (s.hp h).midway && (s.hp h).state == .training then (List.range 4).foldl (fun s k => trainPair h k s) s else s

/-- Frames in flight and the receive buffer end with the link; Midway keeps its replay state (03 R60, 06 R147). -/
def HalfPort.dropFlight (p : HalfPort) : HalfPort :=
  { p with txIdle := false, rxIdle := false, looped := []
           mw := { p.mw with lanesSeen := [], seenSent := false, seenByPartner := false, partnerReset := false } }

/-- A lane at the start of a training attempt. -/
def Lane.restart (l : Lane) (cfg : Nat) : Lane :=
  { l with signal := false, cdrLock := false, blockLock := false, txPre := cfgTxPre cfg, txPost := cfgTxPost cfg }

/-- A lane whose receiver has no power: it keeps its counters alone (01 R17, 03 Table 3.3). -/
def Lane.dark (l : Lane) (cfg : Nat) : Lane := { l.restart cfg with eye := 0, ctle := 0, dfe := [0, 0, 0, 0, 0] }

/-- Changes all four lanes of a half-port. -/
def HalfPort.onLanes (p : HalfPort) (f : Lane → Lane) : HalfPort :=
  { p with lanes := (List.range 4).foldl (fun t k => tput t k (f (tget t k {}))) p.lanes }

/-- Puts one half-port OFF. -/
def HalfPort.toOff (p : HalfPort) (cfg : Nat) : HalfPort :=
  { (p.dropFlight.onLanes fun l => l.dark cfg) with
      state := .off, retryWait := false, trained := cfg, buffer := [], loopKind := 0 }

/-- Starts a training attempt on one half-port, in its configured mode, unless it is in FAULT, which only PORT_CONFIGURE and a
returning reference end (03 R57, R59). -/
def attemptOne (h : Nat) (s : State) : State :=
  let cfg := s.hpConfig h
  if (s.hp h).state = .fault then s
  else if cfgMode cfg = 0 ∨ s.waitsPartner h then s.onHp h fun p => p.toOff cfg
  else if s.refsLost.contains (h / 16) then
    setHpCause h 9 (s.onHp h fun p => { p.dropFlight with state := .fault, retryWait := false, trained := cfg })
  else s.onHp h fun p =>
    { (p.dropFlight.onLanes fun l => l.restart cfg) with
        state := .training, retryWait := false, trained := cfg, attempts := satInc 32 p.attempts, loopKind := 0
        mw := { p.dropFlight.mw with ownDevice := s.eff 0x0400, ownMesh := s.eff 0x0401 } }

/-- Starts a training attempt on one half-port, whose Midway lanes send their training blocks. -/
def attempt (h : Nat) (s : State) : State := trainBlocks h (attemptOne h s)

/-- Starts a training attempt of a half-port, with its partner for a full port, unless it is stopped or looped back. The partner
that is left out of a full port goes on under its own word (03 R55 to R57). -/
def startAttempt (h : Nat) (s : State) : State :=
  if (s.hp h).stopped || (s.hp h).loopKind != 0 then s
  else (s.cfgGroup h ++ s.leftPartner h).foldl (fun s u => attempt u s) s

/-- Leaves UP on purpose and trains again: no LINK_DOWN cause, no link loss (03 R56, R60). -/
def retrain (h : Nat) (s : State) : State := startAttempt h s

/-- Whether a half-port's lanes carry data whose eye is measured in the background. -/
def HalfPort.inService (p : HalfPort) : Bool := p.state == .up || p.state == .test

/-- A link loss of a half-port that is UP, or in mode 6 in TEST, detected on the given lanes: cause LINK_DOWN, counted, and a new attempt after
HP_RETRY_MS (03 R59, R60, R69). -/
def linkLossOne (h : Nat) (lanes : List Nat) (s : State) : State :=
  if (s.hp h).inService then
    let s := s.onHp h fun p =>
      { p.dropFlight with
          state := .training, retryWait := true, linkLosses := satInc 32 p.linkLosses
          lanes := lanes.foldl (fun t k => tmod t k {} fun l => { l with losses := satInc 32 l.losses }) p.lanes }
    setHpCause h 1 s
  else s

/-- A link loss, of both halves for a full port. -/
def linkLoss (h : Nat) (lanes : List Nat) (s : State) : State :=
  let group := s.hpGroup h
  group.foldl (fun s u => linkLossOne u (if u = h then lanes else []) s) s

/-- A failed training attempt: counted, cause TRAIN_FAIL; at HP_RETRAIN_LIMIT in a row FAULT with TRAIN_LIMIT, before it a
new attempt after HP_RETRY_MS (03 R59). -/
def trainFailOne (h : Nat) (s : State) : State :=
  if (s.hp h).state = .training ∧ (s.hp h).retryWait = false then
    let s := s.onHp h fun p => { p with failed := satInc 32 p.failed, fails := p.fails + 1 }
    let s := setHpCause h 2 s
    if s.eff 0x0284 ≤ (s.hp h).fails then setHpCause h 3 (s.onHp h fun p => { p.dropFlight with state := .fault })
    else s.onHp h fun p => { p with retryWait := true }
  else s

/-- A failed attempt of the half-port, or of both halves of a full port. -/
def trainFail (h : Nat) (s : State) : State := (s.hpGroup h).foldl (fun s u => trainFailOne u s) s

/-- What training found on a lane: CTLE, TX_PRE, TX_POST and the DFE taps. -/
abbrev LaneResult := Nat × Nat × Nat × List Int

/-- A lane after training; the cursors of modes other than 1 and 2 are the word's, and mode 6 locks the CDR only (03 Table
3.3). -/
def Lane.trainedAs (l : Lane) (cfg : Nat) (r : Option LaneResult) : Lane :=
  match r with
  | some (ctle, pre, post, dfe) =>
    let own := cfgMode cfg = 1 ∨ cfgMode cfg = 2
    { l with signal := true, cdrLock := true, blockLock := cfgMode cfg != 6, ctle := ctle % 16, dfe := dfe
             txPre := if own then pre % 16 else cfgTxPre cfg, txPost := if own then post % 32 else cfgTxPost cfg }
  | none => { l with signal := true, cdrLock := true, blockLock := cfgMode cfg != 6 }

/-- A half-port reaches UP, or TEST in mode 6 (03 R57, R59). -/
def reachUpOne (h : Nat) (results : List LaneResult) (s : State) : State :=
  if (s.hp h).state = .training ∧ (s.hp h).retryWait = false then
    let test := decide (cfgMode (s.hp h).trained = 6)
    let s := s.onHp h fun p =>
      { p with state := if test then .test else .up, fails := 0
               lanes := (List.range 4).foldl
                 (fun t k => tput t k ((tget t k {}).trainedAs p.trained results[k]?)) p.lanes }
    if test then s else setHpCause h 0 s
  else s

/-- Enters the IDLE state with the transmit direction in electrical idle (03 R64). -/
def HalfPort.hold (p : HalfPort) (cfg : Nat) : HalfPort :=
  { p with state := .idle, retryWait := false, trained := cfg, txIdle := true, rxIdle := true }

/-! ### The peer of a Midway link (06 R138) -/

/-- The programme whose link table a link is held against: the one in effect, else the ARMED one (06 R138). -/
def State.meshProgramme (s : State) : Option Programme :=
  match s.inEffect with
  | some p => some p
  | none => match s.slotIn .armed with | some i => (s.slot i).prog | none => none

/-- Holds the partner of the link kept on `b` against the peer that a programme expects: another one is WRONG_PEER (06 R138). -/
def holdPeer (q : Option Programme) (b : Nat) (s : State) : State :=
  let wrong : Bool := match q with
    | some p => match p.links.find? fun l => s.linkOf l.hp == b with
      | some l => (s.hp b).mw.partner != some l.peer
      | none => false
    | none => false
  let s := s.onHp b fun p => { p with mw := { p.mw with wrongPeer := wrong } }
  if wrong then raise 996 (setHpCause b 13 s) else s

/-! ### Eye figures -/

/-- The eye figure of H and V (03 R61). -/
def eyeFigure (h v : Nat) : Nat := min 255 (4 * min h v)

/-- The lane `n` of the device. -/
def State.lane (s : State) (n : Nat) : Lane := tget (s.hp (n / 4)).lanes (n % 4) {}

/-- Changes lane `n` of the device. -/
def State.onLane (s : State) (n : Nat) (f : Lane → Lane) : State :=
  s.onHp (n / 4) fun p => { p with lanes := tmod p.lanes (n % 4) {} f }

/-- What a background measurement leaves on a lane: the figure, and a trial equaliser step where it does not lower the figure
(03 R61). -/
def Lane.measured (l : Lane) (fig : Nat) (trial : Option (Nat × List Int × Nat × Nat)) : Lane :=
  match trial with
  | some (ctle, dfe, h, v) =>
    if fig ≤ eyeFigure h v then { l with eye := fig, ctle := ctle % 16, dfe := dfe } else { l with eye := fig }
  | none => { l with eye := fig }

/-- The errors of a lane since its last measurement (03 R68, R69): sync-header errors of a 64b/66b link, PRBS errors of mode 6 in
TEST or in a near-end loopback, and the codewords that the half-port's RS-FEC has corrected. -/
def lineErrors (n sync prbs corrected : Nat) (s : State) : State :=
  let p := s.hp (n / 4)
  let on := p.inService || p.nearLoop
  let test := cfgMode p.trained == 6
  let s := s.onLane n fun l =>
    { l with syncErrors := if on && !test then satAdd 32 l.syncErrors sync else l.syncErrors
             prbsErrors := if on && test && cfgPrbs p.trained != 0 then satAdd 32 l.prbsErrors prbs else l.prbsErrors }
  if on && cfgFec p.trained then s.onHp (n / 4) fun p => { p with fecCorrected := satAdd 64 p.fecCorrected corrected } else s

/-- A background measurement of a half-port's lane: the figure is refreshed, the equaliser adapts unless the lane is being
scanned, and a crossing below LANE_EYE_WARN sets EYE_WARN (03 R61 to R63). DESIGN CHOICE (log entry 122): the first figure after
training, before which the figure reads 0, is no crossing downwards. -/
def refreshEye (n h v : Nat) (trial : Option (Nat × List Int × Nat × Nat)) (s : State) : State :=
  if (s.hp (n / 4)).inService then
    let old := (s.lane n).eye
    let fig := eyeFigure h v
    let scanned := (s.hp (n / 4)).scanLane == some (n % 4)
    let s := s.onLane n fun l => l.measured fig (if scanned then none else trial)
    if s.eff 0x0280 ≤ old ∧ fig < s.eff 0x0280 then setHpCause (n / 4) 4 s else s
  else s

/-- A raised LANE_EYE_WARN leaves figures below it: each is a crossing downwards (03 R62). -/
def warnCrossings (old new : Nat) (s : State) : State :=
  (List.range (halfPortsOf s.fuses.variant)).foldl (fun s h =>
    if (s.hp h).inService && (List.range 4).any fun k =>
        let e := (tget (s.hp h).lanes k {}).eye
        decide (old ≤ e ∧ e < new)
    then setHpCause h 4 s else s) s

/-- The figure of a lane has stayed below LANE_EYE_FAIL: EYE_FAIL, link loss and retrain (03 R62). -/
def eyeFail (n : Nat) (s : State) : State :=
  let h := n / 4
  if (s.hp h).inService ∧ (s.lane n).eye < s.eff 0x0281 then linkLoss h [n % 4] (setHpCause h 5 s) else s

/-- How many steps from `i` on hold, going up. -/
def runUp (p : Nat → Bool) (i : Nat) : Nat → Nat
  | 0 => 0
  | n + 1 => if p i then 1 + runUp p (i + 1) n else 0

/-- The consecutive error-free steps through position `i` of 64 (03 R61). -/
def runThrough (p : Nat → Bool) (i : Nat) : Nat :=
  if p i then runUp p i (64 - i) + runUp (fun j => p (i - 1 - j)) 0 i else 0

/-- A full scan ends: adaptation resumes, and the pending LANE_EYE gives its final reply (03 R63). `phase` and `volt` are
the data sampling position; `counts` holds the error count at 64 times the voltage step plus the phase step. -/
def scanComplete (n phase volt : Nat) (counts : List Nat) (s : State) : State :=
  if (s.hp (n / 4)).scanLane = some (n % 4) then
    let s := s.onHp (n / 4) fun p => { p with scanLane := none }
    let clean := fun i => counts.getD i 1 == 0
    let h := runThrough (fun i => clean (64 * volt + i)) phase
    let v := runThrough (fun i => clean (64 * i + phase)) volt
    let l := s.lane n
    let map := (List.range 4096).map fun i => BitVec.ofNat 8 (min 255 (counts.getD i 0))
    finishWork (fun w => w == .laneEye n) .ok
      (be 1 (eyeFigure h v) ++ be 1 h ++ be 1 v ++ be 1 l.ctle ++ (l.dfe.flatMap fun t => be 1 (ofSigned 8 t)) ++
        be 1 l.txPre ++ be 1 l.txPost ++ [0] ++ map) s
  else s

/-! ### The Management Port's link (03 R71 to R73, R446) -/

/-- Sets bits of the Management Port's cause mask and raises EV_MP_LINK (03 R72, R446). -/
def mpCause (b : Nat) (s : State) : State := raise 992 { s with mp := { s.mp with cause := setBit s.mp.cause b } }

/-- A link start: the link settings take effect, with MP_MODE the rate, whose change raises EV_MP_RATE (03 R71 to R73). -/
def mpStart (s : State) : State :=
  let mode := s.eff 0x0290
  let fast := s.mp.wantFast && mode == 0
  let was := s.mp.fast
  let s := { s with mp := { s.mp with
    state := .training, fast := fast, mode := mode, an := s.eff 0x0291, rxInv := s.eff 0x0292, txInv := s.eff 0x0293
    txPre := s.eff 0x0294, txPost := s.eff 0x0295 } }
  if was = fast then s else raise 993 s

/-- The link goes down by itself and starts again: LINK_DOWN, and a link loss (03 R72, R446; Table 3.7). -/
def mpDown (s : State) : State := mpStart (if s.mp.state = .up then mpCause 1 (bumpMp .linkLosses s) else s)

/-- The device restarts the link: a link change, but no link loss (03 R60, R72). -/
def mpRestart (s : State) : State := mpStart (if s.mp.state = .up then raise 992 s else s)

/-- The port runs at the rate of the power state, or, as MP_MODE stood at the last link start, always 1000BASE-X; a change of
rate restarts the link (03 R71, R72). -/
def mpRate (fast : Bool) (s : State) : State :=
  let s := { s with mp := { s.mp with wantFast := fast } }
  if s.mp.fast = (fast && s.mp.mode == 0) then s else mpRestart s

/-- The link reaches up, with a gratuitous ARP, or goes down (03 R72, 04 R79). DESIGN CHOICE (log entry 150): the ARP is a broadcast
request for the own address with target MAC 0, and none is sent while MP_IPV4 is 0. -/
def mpLinkChange (up : Bool) (s : State) : State :=
  if up then
    if s.mp.state = .up ∨ s.mp.pllLocked = false ∨ s.boot.porstLow then s
    else
      let s := mpCause 0 { s with mp := { s.mp with state := .up } }
      if s.eff 0x0310 = 0 then s
      else sendFrame 255 (ethFrame 0xFFFFFFFFFFFF s.macBase none 0x0806
        (arpPacket 1 s.macBase (s.eff 0x0310) 0 (s.eff 0x0310))) s
  else if s.mp.state = .up then mpDown s else s

/-- A background measurement of the Management Port's lane, whose receiver adapts as in R61 (03 R71). -/
def refreshMpEye (h v : Nat) (trial : Option (Nat × List Int × Nat × Nat)) (s : State) : State :=
  if s.mp.state = .up then { s with mp := { s.mp with lane := s.mp.lane.measured (eyeFigure h v) trial } } else s

/-! ### References (03 R53) -/

/-- The half-ports of reference group `k` (03 Table 3.1). -/
def refGroup (k : Nat) : List Nat := (List.range 16).map (16 * k + ·)

/-- The references of the variant. -/
def refsOf (v : Variant) : Nat := match v with | .gl2048 => 8 | .gl1024 => 4

/-- The Management Port's PLL unlocks: PLL_UNLOCK, the link goes down (17 R384, 03 R446). -/
def mpPllLost (s : State) : State :=
  let s := raise 739 s
  mpCause 9 (mpDown { s with mp := { s.mp with pllLocked := false } })

/-- A reference is lost: every half-port of its group that is not OFF enters FAULT with PLL_UNLOCK; with reference 0 the
Management Port's PLL loses its reference too (03 R53, R71). -/
def referenceLost (k : Nat) (s : State) : State :=
  if k < refsOf s.fuses.variant then
    let s := { s with refsLost := if s.refsLost.contains k then s.refsLost else k :: s.refsLost }
    let s := (refGroup k).foldl (fun s h =>
      if (s.hp h).state = .off then s
      else setHpCause h 9 (s.onHp h fun p => { p.dropFlight with state := .fault, retryWait := false })) s
    let s := raise (744 + k) s
    if k = 0 ∧ s.mp.pllLocked = true then mpPllLost s else s
  else s

/-- A lost reference returns: each half-port of the group that is in FAULT trains again, once it is not stopped, and its
failures start from 0 (03 R53, R59). -/
def referenceReturn (k : Nat) (s : State) : State :=
  if s.refsLost.contains k then
    let s := { s with refsLost := s.refsLost.filter (· ≠ k) }
    (refGroup k).foldl (fun s h =>
      if (s.hp h).state = .fault then
        let s := s.onHp h fun p => { p with state := .off, fails := 0, loopKind := 0 }
        if (s.hp h).stopped then s else attempt h s
      else s) s
  else s

/-! ### Stops by the handshake and by shedding (03 R60, R64, R66, R68; 17 Tables 17.2 and 17.7) -/

/-- Whether the half-port can hold its lanes in electrical idle (03 R64). -/
def canIdle (cfg : Nat) : Bool := 4 ≤ cfgMode cfg && cfgMode cfg ≤ 6 && cfgRate cfg ≤ 1

/-- A mode-6 half-port at RATE 2, which ignores idle requests (03 R64). -/
def ignoresIdle (cfg : Nat) : Bool := cfgMode cfg == 6 && cfgRate cfg == 2

/-- A half-port stops: loopback and scan end; one that can idle enters electrical idle unless `deep`, every other one goes off
(03 R64, R66, R68). -/
def HalfPort.stop (p : HalfPort) (deep : Bool) (now : Nat) : HalfPort :=
  let q := { p with loopKind := 0, looped := [], stopped := true, scanLane := none, retryWait := false }
  if p.state = .off ∨ p.state = .fault then q
  else if !deep && canIdle p.trained then
    { q with state := .idle, txIdle := true, rxIdle := true, idleSince := if p.txIdle then p.idleSince else now
             idleHold := if p.stopped then p.idleHold else !p.inService }
  else { (q.dropFlight.onLanes fun l => l.dark p.trained) with state := .off, buffer := [] }

/-- Ends the loopback and the scan of a half-port that ignores the idle request of shedding stage 4; from a loopback it trains
in its configured mode (03 R64, R68). -/
def passOver (h : Nat) (s : State) : State :=
  let looped := (s.hp h).state == .loopback
  let s := s.onHp h fun p => { p with loopKind := 0, looped := [], scanLane := none }
  if looped then attempt h s else s

/-- Stops every half-port; `shed`: for shedding stage 4, whose idle requests a mode-6 half-port at RATE 2 ignores. Every LANE_EYE
whose scan ends completes with HW_FAULT (log entry 99). -/
def stopLanes (deep : Bool) (s : State) (shed : Bool := false) : State :=
  finishAll (fun w => match w with | .laneEye _ => true | _ => false) .hwFault []
    ((List.range (halfPortsOf s.fuses.variant)).foldl (fun s h =>
      if shed && ignoresIdle (s.hp h).trained && !(s.hp h).stopped then passOver h s
      else s.onHp h fun p => p.stop deep s.cycle) s)

/-- Whether a stopped half-port can leave its idle by fast exit: the idle has lasted no longer than LANE_IDLE_HOLD_MS
(03 R66, 06 R148). -/
def HalfPort.quick (p : HalfPort) (now hold : Nat) : Bool :=
  p.stopped && p.state == .idle && !p.idleHold && decide (now ≤ p.idleSince + hold * 10 ^ 6)

/-- A half-port leaves its idle by fast exit: it reaches UP, or in mode 6 TEST, with its sequence state as it was, and its peer is
no longer lost (03 R66, R70; 06 R148). -/
def quickExit (h : Nat) (s : State) : State :=
  let s := s.onHp h fun p =>
    { (p.onLanes fun l => { l with idleExits := satInc 32 l.idleExits }) with
        state := if cfgMode p.trained = 6 then .test else .up, txIdle := false, rxIdle := false
        mw := { p.mw with peerLost := false } }
  if (s.hp h).state = .test then s
  else
    let s := setHpCause h 0 s
    if (s.hp h).midway && s.linkOf h == h then holdPeer s.meshProgramme h s else s

/-- The half-ports return: one that PORT_CONFIGURE holds idle stays so; with `fast`, as on the return from DOZE and from shedding
stage 4, one whose idle was short leaves it by fast exit; every other one trains in its configured mode; FAULT is left only as 03
R59 says (06 R148; 17 R382, R386). -/
def restartLanes (fast : Bool) (s : State) : State :=
  let all := List.range (halfPortsOf s.fuses.variant)
  let quick := all.filter fun h => fast && (s.hpGroup h).all fun u => (s.hp u).quick s.cycle (s.eff 0x0285)
  all.foldl (fun s h =>
    if (s.hp h).stopped then
      let s := s.onHp h fun p => { p with stopped := false, idleHold := false }
      if (s.hp h).state = .fault then s
      else if (s.hp h).parked then s.onHp h fun p => p.dropFlight.hold p.trained
      else if quick.contains h then quickExit h s
      else attempt h s
    else s) s

/-! ### Status -/

/-- A lane status word (03 Table 3.6). -/
def laneWord (p : HalfPort) (l : Lane) : Nat :=
  p.state.ctorIdx + 8 * cfgRate p.trained + 32 * b2n l.signal + 64 * b2n l.cdrLock + 128 * b2n l.blockLock +
    256 * l.eye + 2 ^ 16 * l.ctle + 2 ^ 20 * l.txPre + 2 ^ 24 * l.txPost

/-- An item of GET_STATE or PORT_STATUS: ITEM_LENGTH, INDEX, the quantities, padded to 4 bytes (13 R317). -/
def stateItem (index : Nat) (body : Bytes) : Bytes :=
  let padded := body ++ List.replicate ((4 - body.length % 4) % 4) 0
  be 2 (4 + padded.length) ++ be 2 index ++ padded

/-- The counters of half-port `h` as items: one per lane, then its own, the Ethernet receive counters and the Midway
counters of its link (03 R69, 04 R77, 06 R153; the order between chapters and the indices, the numbers of the lane and of the
half-port, are the model's, log entry 10). -/
def hpItems (h : Nat) (p : HalfPort) (link : MwLink) : Bytes :=
  ((List.range 4).flatMap fun k =>
    let l := tget p.lanes k {}
    stateItem (4 * h + k) (be 4 l.syncErrors ++ be 4 l.prbsErrors ++ be 4 l.idleExits ++ be 4 l.idleFails ++ be 4 l.losses)) ++
  stateItem h (be 4 p.attempts ++ be 4 p.failed ++ be 4 p.linkLosses ++ be 8 p.fecCorrected ++ be 8 p.fecUncorrected ++
    ((List.range 8).flatMap fun i => be 4 (tget p.rx i 0)) ++
    ((List.range 17).flatMap fun i => be 4 (tget link.counters i 0)) ++ be 4 link.roundTrip)

/-- The reply parameters of PORT_STATUS for a half-port, whose Midway link may be kept on the even half of a full port. -/
def hpStatus (h : Nat) (p : HalfPort) (link : MwLink) : Bytes :=
  be 1 (cfgMode p.trained) ++ be 1 p.state.ctorIdx ++ be 2 p.cause ++ be 1 4 ++ [0, 0, 0] ++
    ((List.range 4).flatMap fun k => be 4 (laneWord p (tget p.lanes k {}))) ++ hpItems h p link

/-- Clears the counters of a half-port (03 R69). -/
def HalfPort.clear (p : HalfPort) : HalfPort :=
  { (p.onLanes fun l => { l with syncErrors := 0, prbsErrors := 0, idleExits := 0, idleFails := 0, losses := 0 }) with
      attempts := 0, failed := 0, linkLosses := 0, fecCorrected := 0, fecUncorrected := 0, rx := []
      mw := { p.mw with counters := [] } }

/-- Clears what PORT_STATUS of half-port `h` has returned (03 R69). -/
def clearPort (h : Nat) (s : State) : State :=
  (s.onHp h fun p => p.clear).onHp (s.linkOf h) fun p => { p with mw := { p.mw with counters := [] } }

/-- The reply parameters of PORT_STATUS for the Management Port (03 R446). -/
def mpStatus (m : MgmtPort) : Bytes :=
  be 1 (if m.fast then 0x10 else 0x11) ++ be 1 m.state.ctorIdx ++ be 2 m.cause ++ be 1 1 ++ [0, 0, 0] ++
    be 4 (m.state.ctorIdx + 8 * (if m.fast then 1 else 2) + 32 * b2n (m.state == .up) + 64 * b2n (m.state == .up) +
      128 * b2n (m.state == .up) + 2 ^ 8 * m.lane.eye + 2 ^ 16 * m.lane.ctle + 2 ^ 20 * m.txPre + 2 ^ 24 * m.txPost) ++
    stateItem 0xFF ((List.range 14).flatMap fun i => be 4 (tget m.counters i 0))

/-! ### The port commands (13 Table 13.7) -/

/-- Whether two mode-5 words of one port agree in RATE, TX_PRE and TX_POST (03 R55). -/
def pairOk (a b : Nat) : Bool :=
  !(cfgMode a == 5 && cfgMode b == 5) ||
    (cfgRate a == cfgRate b && cfgTxPre a == cfgTxPre b && cfgTxPost a == cfgTxPost b)

/-- The other half-port of a port. -/
def partnerOf (h : Nat) : Nat := if h % 2 = 0 then h + 1 else h - 1

/-- Whether a pending LANE_EYE or SELFTEST uses a half-port of these (13 R312). -/
def State.portBusy (s : State) (hs : List Nat) : Bool :=
  s.working fun w => match w with
    | .laneEye n => hs.contains (n / 4)
    | .selftest 2 first count => hs.any fun h => decide (first ≤ h) && decide (h < first + count)
    | _ => false

/-- Writes a half-port's configuration word, unless KEEP is set. -/
def configured (h : Nat) (keep : Bool) (cfg : Nat) (s : State) : State :=
  if keep then s else { s with set := { s.set with runtime := tput s.set.runtime (0x0200 + h) cfg } }

/-- PORT_CONFIGURE (03 R56; 13 under Table 13.7): a half-port of a full port takes its partner with it, into training or into
electrical idle, and a mode-5 word that waits for its partner keeps its lanes OFF (03 R55, R57, R64; log entry 51). -/
def portConfigure (c : Ctx) (s : State) : Verdict :=
  let target := fld c.p 0 1
  let flags := fld c.p 1 1
  let idle := bit flags 0
  let keep := bit flags 1
  if flags / 4 ≠ 0 ∨ fld c.p 2 2 ≠ 0 then .no .badParam
  else if target = 0xFF then (if idle then .no .badParam else .did mpRestart)
  else if !(target < halfPortsOf s.fuses.variant) then .no .badParam
  else
    let cur := s.hpConfig target
    let cfg := if keep then cur else fld c.p 4 4
    if !hpConfigOk cfg then .no .badParam
    else if idle && !canIdle cfg then .no .badParam
    else if !pairOk cfg (s.hpConfig (partnerOf target)) then .no .badParam
    else if s.hpUsed target && (cfgMode cfg ≠ cfgMode cur || cfgRate cfg ≠ cfgRate cur) then .no .badState
    else if s.portBusy (s.hpGroup target ++ (configured target keep cfg s).cfgGroup target) then .no .busy
    else .did fun s =>
      let s := configured target keep cfg s
      let hold := idle && !s.waitsPartner target
      let group := s.cfgGroup target
      let left := s.leftPartner target
      let s := group.foldl (fun s u => s.onHp u fun p =>
        { p with parked := hold, loopKind := 0, fails := if p.state = .fault then 0 else p.fails
                 state := if p.state = .fault then .off else p.state }) s
      if !hold then retrain target s
      else if (s.hp target).stopped then group.foldl (fun s u => s.onHp u fun p => { p with trained := cfg }) s
      else left.foldl (fun s u => attempt u s) (group.foldl (fun s u => s.onHp u fun p => p.dropFlight.hold cfg) s)

/-- PORT_STATUS (03 R69, R446). -/
def portStatus (c : Ctx) (s : State) : Verdict :=
  let target := fld c.p 0 1
  let flags := fld c.p 1 1
  if flags / 2 ≠ 0 ∨ fld c.p 2 2 ≠ 0 then .no .badParam
  else if target = 0xFF then .done fun s =>
    ((if bit flags 0 then { s with mp := { s.mp with counters := [] } } else s), mpStatus s.mp)
  else if target < halfPortsOf s.fuses.variant then .done fun s =>
    ((if bit flags 0 then clearPort target s else s), hpStatus target (s.hp target) (s.hp (s.linkOf target)).mw)
  else .no .badParam

/-- LANE_LOOPBACK (03 R67, R68). DESIGN CHOICE (log entry 124): a stopped half-port, whose lanes are off or held, answers
BAD_STATE, and a half-port in FAULT stays there, as R59 lets no loopback end FAULT. -/
def laneLoopback (c : Ctx) (s : State) : Verdict :=
  let h := fld c.p 0 1
  let kind := fld c.p 1 1
  if !(h < halfPortsOf s.fuses.variant) ∨ 3 < kind ∨ fld c.p 2 2 ≠ 0 then .no .badParam
  else if s.hpUsed h || (s.hp h).stopped then .no .badState
  else if s.portBusy (s.hpGroup h) then .no .busy
  else .did fun s =>
    let group := s.hpGroup h
    if kind = 0 then
      if (s.hp h).loopKind = 0 then s
      else
        let s := group.foldl (fun s u => s.onHp u fun p => { p with loopKind := 0 }) s
        startAttempt h s
    else group.foldl (fun s u => s.onHp u fun p =>
      { p.dropFlight with state := if p.state = .fault then .fault else .loopback, loopKind := kind, retryWait := false
                          parked := false }) s

/-- LANE_EYE (03 R63). -/
def laneEye (c : Ctx) (s : State) : Verdict :=
  let n := fld c.p 0 2
  if !(n < 4 * halfPortsOf s.fuses.variant) ∨ fld c.p 2 2 ≠ 0 then .no .badParam
  else
    let p := s.hp (n / 4)
    if p.state = .off ∨ p.state = .idle ∨ p.state = .fault then .no .badState
    else if p.scanLane.isSome then .no .busy
    else .later (.laneEye n) fun s => s.onHp (n / 4) fun p => { p with scanLane := some (n % 4) }

end Sys2Proof.Machine
end

