-- ==== Sys2Proof/Machine/CmdSettings.lean ====
section
/-! DEFINITION. The setting commands: the rules between keys and against the device state, the effects of a change, and
GET_SETTING, SET_SETTING, COMMIT_PRESET, REVERT_SETTING and LIST_SETTINGS (00_scope.md R9 to R11; 13 R318, R326). -/

namespace Sys2Proof.Machine

/-! ### The rules that SET_SETTING applies to a key -/

/-- The state with another runtime layer, of which only the settings are read. -/
def State.withRuntime (s : State) (rt : Tab Nat) : State := { s with set := { s.set with runtime := rt } }

/-- 02 R24: base `n` shares a half-port and a domain with another PTP base. -/
def ptpClash (s : State) (n : Nat) : Bool :=
  s.tbKey n 0 == 1 && (List.range 4).any fun m =>
    m != n && s.tbKey m 0 == 1 && s.tbKey m 1 == s.tbKey n 1 && s.tbKey m 2 == s.tbKey n 2

/-- 17 R400: the entry sags rise strictly and each hysteresis lies below its entry. -/
def shedKeysOk (s : State) : Bool :=
  ((List.range 4).all fun i => decide (s.eff (0x0B10 + i) < s.eff (0x0B11 + i))) &&
  ((List.range 5).all fun i => decide (s.eff (0x0B18 + i) < s.eff (0x0B10 + i)))

/-- The rules between keys and against the programmes whose breach is answered with BAD_PARAM, judged on the state `s` that
the change would leave. -/
def keyRulesOk (s : State) (key : Nat) : Bool :=
  if 0x0200 ≤ key ∧ key < 0x0280 then pairOk (s.eff key) (s.hpConfig (partnerOf (key - 0x0200)))
  else if 0x0500 ≤ key ∧ key < 0x0540 ∧ key % 16 ≤ 2 then !ptpClash s (key / 16 % 4)
  else if key = 0x0540 then
    s.heldProgrammes.all fun p => decide (s.eff 0x0540 ≤ p.t) && ringDepthOk p (s.eff 0x0540)
  else if key = 0x0280 ∨ key = 0x0281 then decide (s.eff 0x0281 ≤ s.eff 0x0280)
  else if key = 0x0704 ∨ key = 0x070A then
    decide (s.eff 0x0704 + s.eff 0x070A ≤ 256) &&
      s.heldProgrammes.all fun p => decide (shareTotal p (s.eff 0x0704) (s.eff 0x070A) ≤ 256)
  else if key = 0x0E01 ∨ key = 0x0E02 then decide (4 * s.eff 0x0E02 ≤ s.eff 0x0E01 * 1000)
  else if key = 0x0120 ∨ key = 0x0B02 then s.eff 0x0B02 == 0 || s.eff 0x0B02 != s.eff 0x0120
  else if 0x0B10 ≤ key ∧ key ≤ 0x0B1C then shedKeysOk s
  else true

/-- The keys that their chapters forbid in the current state, for the change from `s` to `s'` (03 R56, 06 R127, 18 R409). -/
def keyLocked (s s' : State) (key : Nat) : Bool :=
  if 0x0200 ≤ key ∧ key < 0x0280 then
    s.hpUsed (key - 0x0200) &&
      (cfgMode (s'.eff key) != cfgMode (s.eff key) || cfgRate (s'.eff key) != cfgRate (s.eff key))
  else if key = 0x0400 ∨ key = 0x0401 then !s.heldSlots.isEmpty
  else 0x0C00 ≤ key && key ≤ 0x0C03

/-- The status that SET_SETTING gives for a key whose value the change from `s` to `s'` leaves in effect, if it refuses. -/
def keyRefused (s s' : State) (key : Nat) : Option Status :=
  if !valueOk s.fuses key (s'.eff key) then some .badParam
  else if !keyRulesOk s' key then some .badParam
  else if keyLocked s s' key then some .badState
  else none

/-- The first refusal over keys in ascending order (13 R318). -/
def firstRefused (s s' : State) : List Nat → Option Status
  | [] => none
  | k :: ks => match keyRefused s s' k with
    | some st => some st
    | none => firstRefused s s' ks

/-! ### What a change of effective value does at once (00 R11) -/

/-- A change of source: UNSET or DISABLED at once, reporting epoch id 0; the pending step is cancelled with BAD_STATE
(02 R22). The count of an UNSET base starts from an arbitrary value (R20). -/
def sourceChanged (n : Nat) (s : State) : State :=
  let off := s.tbKey n 0 == 0
  let w := s.free
  let s := { s with free := w + 1 }
  let s := s.onTb n fun b =>
    { b with mode := if off then .disabled else .unset, count := (Config.freeWord w).toNat * nsUnit, increment := nsUnit,
             acc := 0, rateNum := 0, rateDen := 1, nominalNum := 0, nominalDen := 1, inWindow := 0, rejectedRun := 0,
             foreign := [], master := none, syncWait := [], syncLast := none, delayReq := none, delayPair := none,
             pathDelay := none, stepWait := none, ppsLast := none, refMissing := false, ppsOut := none, ppsHold := none }
  noDeadlineCheck (finishWork (fun w => w == .tbStep n || w == .tbRestep n) .badState [] s)

/-- A change of a PTP key clears the foreign-master table, the selected master, and the Sync and the Delay_Req that wait
(02 R49). -/
def ptpKeyChanged (n : Nat) (s : State) : State :=
  s.onTb n fun b => { b with foreign := [], master := none, syncWait := [], syncLast := none, delayReq := none,
                             delayPair := none, pathDelay := none }

/-- What the change of one key's effective value from `old` does at once. -/
def keyEffect (key old : Nat) (s : State) : State :=
  if 0x0200 ≤ key ∧ key < 0x0280 then
    let h := key - 0x0200
    if (s.hp h).state = .off ∧ cfgMode (s.eff key) ≠ 0 then startAttempt h s else s
  else if 0x0500 ≤ key ∧ key < 0x0540 then
    let n := key / 16 % 4
    if key % 16 = 0 then sourceChanged n s
    else if key % 16 ≤ 3 then (if s.tbKey n 0 = 1 then ptpKeyChanged n s else s)
    else if key % 16 = 0xC ∧ s.eff key = 0 then s.onTb n fun b => { b with ppsOut := none }
    else s
  else if key = 0x0280 then warnCrossings old (s.eff key) s
  else s

/-- Puts a runtime layer in force: each key whose effective value it changes has its effect. -/
def applyRuntime (rt : Tab Nat) (s : State) : State :=
  let new := s.withRuntime rt
  let s' := if [0x0704, 0x070A, 0x070B].all fun k => s.eff k == new.eff k then new else s.settleBuckets.withRuntime rt
  let keys := ((s.set.runtime ++ rt).map (·.1)).eraseDups
  keys.foldl (fun t k => if s.eff k = s'.eff k then t else keyEffect k (s.eff k) t) s'

/-! ### The commands -/

/-- GET_SETTING (13 R318). -/
def getSetting (c : Ctx) (s : State) : Verdict :=
  let key := fld c.p 0 2
  let layer := fld c.p 2 1
  if (keyInfo s.fuses key).isNone ∨ 3 < layer ∨ fld c.p 3 1 ≠ 0 then .no .badParam
  else
    let answer := match layer with
      | 0 => some (supplied s.fuses s.set key)
      | 1 => (tfind s.set.runtime key).map (1, ·)
      | 2 => (tfind s.set.image key).map (2, ·)
      | _ => some (3, factoryField s.fuses key)
    match answer with
    | some (l, v) => .answer (be 2 key ++ be 1 l ++ [1] ++ be 8 v)
    | none => .answer (be 2 key ++ be 1 layer ++ [0] ++ be 8 0)

/-- SET_SETTING (00 R10, 13 R318). -/
def setSetting (c : Ctx) (s : State) : Verdict :=
  let key := fld c.p 0 2
  let v := fld c.p 4 8
  let rt := tput s.set.runtime key (keptField key v)
  if fld c.p 2 2 ≠ 0 ∨ !valueOk s.fuses key v then .no .badParam
  else match keyRefused s (s.withRuntime rt) key with
    | some st => .no st
    | none => .done fun s => (applyRuntime rt s, be 2 key ++ [0, 0])

/-- REVERT_SETTING (00 R10, 13 R318; log entry 165). -/
def revertSetting (c : Ctx) (s : State) : Verdict :=
  let key := fld c.p 0 2
  let flags := fld c.p 2 1
  if 1 < flags ∨ fld c.p 3 1 ≠ 0 then .no .badParam
  else if flags = 1 then
    if key ≠ 0 then .no .badParam
    else match firstRefused s (s.withRuntime []) (s.set.runtime.map (·.1)) with
      | some st => .no st
      | none => .done fun s => (applyRuntime [] s, be 2 s.set.runtime.length ++ [0, 0])
  else if (keyInfo s.fuses key).isNone then .no .badParam
  else if 0x0C00 ≤ key ∧ key ≤ 0x0C03 then .no .badState
  else if !thas s.set.runtime key then if keyLocked s s key then .no .badState else .answer [0, 0, 0, 0]
  else match keyRefused s (s.withRuntime (tdel s.set.runtime key)) key with
    | some st => .no st
    | none => .done fun s => (applyRuntime (tdel s.set.runtime key) s, [0, 1, 0, 0])

/-- The keys that hold a value in a layer, ascending, with the layer that supplies each and its value. -/
def layerEntries (s : State) (layer : Nat) : List (Nat × Nat × Nat) :=
  match layer with
  | 0 => (allKeys s.fuses).map fun k => (k, supplied s.fuses s.set k)
  | 1 => s.set.runtime.map fun e => (e.1, 1, e.2)
  | 2 => s.set.image.map fun e => (e.1, 2, e.2)
  | _ => (allKeys s.fuses).map fun k => (k, 3, factoryField s.fuses k)

/-- LIST_SETTINGS (13 R318). -/
def listSettings (c : Ctx) (s : State) : Verdict :=
  let layer := fld c.p 0 1
  let count := fld c.p 4 2
  if 3 < layer ∨ 745 < count ∨ fld c.p 1 1 ≠ 0 ∨ fld c.p 6 2 ≠ 0 then .no .badParam
  else
    let all := (layerEntries s layer).filter fun e => decide (fld c.p 2 2 ≤ e.1)
    let shown := all.take count
    let next := match all.drop count with | e :: _ => e.1 | [] => 0
    .answer (be 2 shown.length ++ be 2 next ++ shown.flatMap fun e => be 2 e.1 ++ be 1 e.2.1 ++ [0] ++ be 8 e.2.2)

/-- Whether a pending command holds the flash (19 R425). -/
def State.flashHeld (s : State) : Bool := s.working fun w =>
  match w with
  | .commitPreset _ | .imageWrite .. | .imageVerify _ => true
  | _ => false

/-- The keys that a COMMIT_PRESET lists. -/
def listedKeys (p : Bytes) : List Nat := (List.range (fld p 2 2)).map fun i => fld p (4 + 2 * i) 2

/-- COMMIT_PRESET: its checks; the slot is written in the background (13 R318, 19 R423, R425). -/
def commitPreset (c : Ctx) (s : State) : Verdict :=
  let mode := fld c.p 0 1
  if 1 < mode ∨ fld c.p 1 1 ≠ 0 ∨ (mode = 0 ∧ fld c.p 2 2 ≠ 0) then .no .badParam
  else if mode = 1 ∧ (listedKeys c.p).any (fun k => !thas s.set.runtime k) = true then .no .badParam
  else if s.flashHeld then .no .busy
  else .later (.commitPreset (if mode = 0 then none else some (listedKeys c.p))) id

end Sys2Proof.Machine
end

