-- ==== Sys2Proof/Machine/Sessions.lean ====
section
/-! DEFINITION. Sessions, the command packets of the UDP transports, and the Sideband (13_command_protocol.md R307 to R310,
R316, R322, R445). -/

namespace Sys2Proof.Machine

/-! ### Sessions -/

/-- The lowest session slot that is not open (13 R308; which free slot is taken is the model's, log entry 11). -/
def State.freeSession (s : State) : Option Nat := (List.range 8).find? fun i => !(s.session i).isOpen

/-- The slot of the controller's session (13 R309). -/
def State.controllerSlot (s : State) : Option Nat :=
  (List.range 8).find? fun i => (s.session i).isOpen && (s.session i).controller

/-- The incarnation after this one: it wraps from 8,191 to 1 (13 R308). -/
def nextIncarnation (n : Nat) : Nat := if n < 8191 then n + 1 else 1

/-- Opens slot `i`: bound to the packet's transport and source, H at the HELLO's SEQ. -/
def openSession (i : Nat) (h : CmdHdr) (controller : Bool) (timeout : Nat) (s : State) : State :=
  bumpAt h.origin.transport openedCtr (s.onSession i fun x =>
    { isOpen := true, incarnation := nextIncarnation x.incarnation, origin := some h.origin, controller := controller,
      timeoutS := timeout, high := h.seq.toNat, helloSeq := h.seq.toNat })

/-- Takes the controller role from the session that holds it (13 R309). -/
def takeControl (s : State) : State :=
  match s.controllerSlot with
  | some j => raise 963 (s.onSession j fun x => { x with controller := false })
  | none => s

/-- HELLO (13 R308, R309). -/
def hello (c : Ctx) (s : State) : Verdict :=
  let role := fld c.p 0 1
  let flags := fld c.p 1 1
  let timeout := fld c.p 2 2
  if 1 < role ∨ 1 < flags ∨ timeout < 10 ∨ 3600 < timeout then .no .badParam
  else match s.freeSession with
    | none => .no .busy
    | some i =>
      if role = 1 ∧ s.controllerSlot.isSome ∧ flags = 0 then .no .busy
      else .done fun s =>
        let s := if role = 1 then takeControl s else s
        let s := openSession i c.hdr (role == 1) timeout s
        (s, be 2 ((s.session i).id i) ++ be 1 role ++ be 1 c.unit ++ be 4 s.cmd.bootId)

/-- GOODBYE: the session closes after its reply (13 R310, `closeOrOpen`). -/
def goodbye (_ : Ctx) (_ : State) : Verdict := .did id

/-- ECHO (13 Table 13.6). -/
def echo (c : Ctx) (_ : State) : Verdict := .answer c.p

/-- SESSION_TIMEOUT: no packet that passes step 5 has arrived for TIMEOUT_S (13 R310, R325). -/
def execSessionTimeout (slot : Nat) (s : State) : Host.Outcome State Fault Refusal :=
  .next (if slot < 8 ∧ (s.session slot).isOpen = true then raise 961 (closeSession expiredCtr slot s) else s)

/-- COMMAND_PACKET_ARRIVAL: a command packet reaches the front end from a transport that carries commands now (13 R445; 01
R16). -/
def execCommandPacketArrival (o : Origin) (packet : Bytes) (s : State) : Host.Outcome State Fault Refusal :=
  .next (if s.boot.porstLow || !s.carries o then s else frontEnd o packet s)

/-! ### The Sideband (13 R322) -/

/-- One byte of the SMBus packet error code: CRC-8 with polynomial 0x07 (SMBus 3.1, which R322 cites). -/
def pecByte (c b : Byte) : Byte :=
  (List.range 8).foldl (fun c _ => if c.msb then (c <<< 1) ^^^ 0x07#8 else c <<< 1) (c ^^^ b)

/-- The packet error code of the bytes of a transaction, addresses included. -/
def pec (bs : Bytes) : Byte := bs.foldl pecByte 0#8

/-- Changes the Sideband's buffers. -/
def State.onSb (s : State) (f : Sideband → Sideband) : State :=
  { s with cmd := { s.cmd with sideband := f s.cmd.sideband } }

/-- Whether the PEC of a write is right: the one sent, or none where SB_PEC_REQUIRED is 0. -/
def sbPecOk (s : State) (sent : Option Byte) (bs : Bytes) : Bool :=
  match sent with
  | some b => b == pec (BitVec.ofNat 8 (2 * s.eff 0x0120) :: bs)
  | none => s.eff 0x0121 == 0

/-- The Sideband's origin, to which its replies return. -/
def sbOrigin : Origin := { transport := .sideband, hp := 0, mac := 0, ip := 0, port := 0, tag := none }

/-- A Block Write part: NACKed while BUSY or with a bad PEC, which aborts the assembly; past 8,980 bytes OVERRUN. Also says
whether the part was taken. -/
def sbAppend (code : Byte) (data : Bytes) (sent : Option Byte) (s : State) : State × Bool :=
  if s.cmd.sideband.busy ∨ data.length = 0 ∨ 255 < data.length then (s.onSb fun b => { b with ack := false }, false)
  else if !sbPecOk s sent (code :: BitVec.ofNat 8 data.length :: data) then
    (s.onSb fun b => { b with command := [], ack := false }, false)
  else if 8980 < s.cmd.sideband.command.length + data.length then
    (s.onSb fun b => { b with command := [], overrun := true, ack := true }, false)
  else (s.onSb fun b => { b with command := b.command ++ data, ack := true }, true)

/-- SB_BLOCK_WRITE_APPEND: code 0xA0. -/
def execSbBlockWriteAppend (data : Bytes) (sent : Option Byte) (s : State) : Host.Outcome State Fault Refusal :=
  .next (if s.boot.porstLow then s else (sbAppend 0xA0 data sent s).1)

/-- WRITE_END: code 0xA1 appends, discards any unread reply, also where the part overruns the buffer, and submits the buffer as one packet. BUSY lasts while the
packet waits for its reply. -/
def execWriteEnd (data : Bytes) (sent : Option Byte) (s : State) : Host.Outcome State Fault Refusal :=
  .next (
    if s.boot.porstLow then s
    else match sbAppend 0xA1 data sent s with
      | (s, false) =>
        if s.cmd.sideband.ack then s.onSb fun b => { b with reply := [], replyPos := 0, ready := false } else s
      | (s, true) =>
        let packet := s.cmd.sideband.command
        let n := s.cmd.queue.length
        let s := s.onSb fun b => { b with command := [], reply := [], replyPos := 0, ready := false }
        let s := frontEnd sbOrigin packet s
        s.onSb fun b => { b with busy := decide (n < s.cmd.queue.length) })

/-- SB_READ_STATUS: code 0xA2. -/
def execSbReadStatus (s : State) : Host.Outcome State Fault Refusal :=
  .next (if s.boot.porstLow then s else s.onSb fun b =>
    { b with lastRead := [BitVec.ofNat 8 (b2n b.ready + 2 * b2n b.busy + 4 * b2n b.overrun)], ack := true })

/-- SB_BLOCK_READ: code 0xA3 returns the next bytes of the reply, and 0x00 past its end. -/
def execSbBlockRead (n : Nat) (s : State) : Host.Outcome State Fault Refusal :=
  .next (if s.boot.porstLow then s else s.onSb fun b =>
    { b with lastRead := padTo (min n 255) (slice b.reply b.replyPos (min n 255)), replyPos := b.replyPos + min n 255,
             ack := true })

/-- SB_DISCARD: code 0xA4 discards the buffer and the reply, and with them OVERRUN (log entry 12). -/
def execSbDiscard (sent : Option Byte) (s : State) : Host.Outcome State Fault Refusal :=
  .next (
    if s.boot.porstLow then s
    else if s.cmd.sideband.busy then s.onSb fun b => { b with ack := false }
    else if !sbPecOk s sent [0xA4] then s.onSb fun b => { b with command := [], ack := false }
    else s.onSb fun b =>
      { b with command := [], reply := [], replyPos := 0, ready := false, overrun := false, ack := true })

end Sys2Proof.Machine
end

