-- ==== Sys2Proof/Machine/MidwayTx.lean ====
section
/-! DEFINITION. The sending side of Midway: segments, DATA and CLOSE frames in staging (06_midway_exchange.md R130 to R136,
R143, R144, R148). -/

namespace Sys2Proof.Machine

/-- The counters of a Midway link in the order of 06 R153. -/
inductive MwCtr where
  | sent | received | resends | naksSent | naksReceived | crc | sequence | credit | malformed | control | late | early
  | empty | unsent | lost | unlisted | idleEntries

/-- Changes the Midway state of a half-port. -/
def State.onMw (s : State) (h : Nat) (f : MwLink → MwLink) : State := s.onHp h fun p => { p with mw := f p.mw }

/-- Adds to a counter of a link. -/
def mwAdd (h : Nat) (c : MwCtr) (k : Nat) (s : State) : State :=
  s.onMw h fun m => { m with counters := tmod m.counters c.ctorIdx 0 fun n => satAdd 32 n k }

/-- Counts one more on a link. -/
def mwBump (h : Nat) (c : MwCtr) (s : State) : State := mwAdd h c 1 s

/-- The three bytes of a slice sample; an invalid one is the pair (-2048, -2048) (06 R130, R131). -/
def sampleBytes (v : Option (Int × Int)) : Bytes :=
  match v with
  | some (re, im) => be 3 (ofSigned 12 re * 4096 + ofSigned 12 im)
  | none => [0x80, 0x08, 0x00]

/-- A frame discarded before it is sent: counted as unsent, and the orbit's CLOSE goes with its data (06 R143, R144, R148). -/
def discardOut (h : Nat) (f : MwOut) (s : State) : State :=
  let s := mwBump h .unsent s
  raise 998 (s.onMw h fun m =>
    { m with discarded := if f.close || m.discarded.contains f.orbit then m.discarded else f.orbit :: m.discarded })

/-- Forms a frame: into the link's staging, or discarded while the peer is lost (06 R147, R148). -/
def stageOut (h : Nat) (f : MwOut) (s : State) : State :=
  if (s.hp h).mw.peerLost then discardOut h f s
  else s.onMw h fun m => { m with staged := m.staged ++ [f] }

/-- The payload of a CLOSE frame (06 R136). -/
def closePayload (orbit : Nat) (deadline : Bool) : Bytes := be 8 orbit ++ be 4 (b2n deadline) ++ be 4 0

/-- Stages a CLOSE; one behind discarded data of its orbit is discarded with it (06 R144). -/
def stageClose (h orbit : Nat) (deadline : Bool) (s : State) : State :=
  let f : MwOut := { close := true, orbit := orbit, offset := 0, payload := closePayload orbit deadline }
  if (s.hp h).mw.discarded.contains orbit then discardOut h f s else stageOut h f s

/-- Whether stage A has formed every sample of orbit `n` of the link's segments. -/
def linkDone (s : State) (p : Programme) (l : ProgLink) (n : Nat) : Bool :=
  l.tx.all fun seg =>
    let c := tget s.ch.paths seg.1 {}
    s.stagePast c.runA c.nextA n ((n + 1) * p.t)

/-- Stages the CLOSE frames of a link whose data are all formed, in orbit order (06 R144). -/
def closeIfDone (l : ProgLink) (s : State) : State :=
  let b := s.linkOf l.hp
  let due := (s.hp b).mw.closeDue
  let ready := due.takeWhile fun e => match s.progAt e.1 with | some p => linkDone s p l e.1 | none => true
  let s := s.onMw b fun m => { m with closeDue := m.closeDue.drop ready.length }
  ready.foldl (fun s e => stageClose b e.1 e.2 s) s

/-- Local ingest closes orbit `n`: a CLOSE on every link of the programme (06 R144). -/
def queueCloses (p : Programme) (n : Nat) (deadline : Bool) (s : State) : State :=
  p.links.foldl (fun s l =>
    closeIfDone l (s.onMw (s.linkOf l.hp) fun m => { m with closeDue := m.closeDue ++ [(n, deadline)] })) s

/-- Cuts full DATA payloads off a segment's waiting bytes; the fuel is the number of bytes. -/
def cutFrames (fuel h orbit base : Nat) (last : Bool) (key framed : Nat) (wait : Bytes) (s : State) : State :=
  match fuel with
  | 0 => s
  | fuel + 1 =>
    if 2048 ≤ wait.length ∨ (last = true ∧ wait ≠ []) then
      let pay := wait.take 2048
      let s := stageOut h { close := false, orbit := orbit, offset := base + framed / 4, payload := pay } s
      cutFrames fuel h orbit base last key (framed + pay.length) (wait.drop 2048) s
    else s.onMw h fun m => { m with building := if last then tdel m.building key else tput m.building key (framed, wait) }

/-- A slice sample of a segment sent to a peer joins the link's stream: sample `m` of path and slice, in orbit `orbit`
(06 R130, R132). -/
def sendSample (p : Programme) (l : ProgLink) (path slice m : Nat) (v : Option (Int × Int)) (s : State) : State :=
  let orbit := m / (p.n * p.c)
  let key := path * 256 + slice
  let seg := l.tx.findIdx fun e => e == (path, slice)
  let b := s.linkOf l.hp
  let (framed, wait) := tget (s.hp b).mw.building key (0, [])
  let wait := wait ++ sampleBytes v
  cutFrames (wait.length + 1) b orbit (seg * (3 * p.n * p.c / 4)) (decide (m % (p.n * p.c) = p.n * p.c - 1)) key framed wait s

/-- The 8-byte header of a frame (06 Table 6.2). -/
def mwHeader (f : MwOut) (seq : Nat) : Bytes :=
  be 8 ((if f.close then 2 else 1) * 2 ^ 62 + seq % 2 ^ 16 * 2 ^ 46 + (f.payload.length / 4) * 2 ^ 36 +
    f.orbit % 16 * 2 ^ 32 + f.offset % 2 ^ 32)

/-- A whole frame: header, payload and CRC-32C (06 R135). -/
def mwFrameBytes (f : MwOut) (seq : Nat) : Bytes :=
  let b := mwHeader f seq ++ f.payload
  b ++ be 4 (crc32c b)

/-- The data blocks of a frame's bytes, the last one padded with zeros; the fuel is the number of bytes (06 R135). -/
def dataBlocks (fuel : Nat) (bs : Bytes) : List Bytes :=
  match fuel with
  | 0 => []
  | fuel + 1 =>
    if bs = [] then []
    else (0b01#8 :: (bs.take 8 ++ List.replicate (8 - bs.length) 0)) :: dataBlocks fuel (bs.drop 8)

/-- The blocks of a frame: START, then its data blocks (06 R135). -/
def frameBlocks (bs : Bytes) : List Bytes := controlBlock 0x78 (List.replicate 7 0) :: dataBlocks bs.length bs

/-- An IDLE block (06 Table 6.1). -/
def idleBlock : Bytes := controlBlock 0x1E (List.replicate 7 0)

end Sys2Proof.Machine
end

