-- ==== Sys2Proof/Machine/Orbits.lean ====
section
/-! DEFINITION. Sample indices, orbits and frames: the close by frontier and by deadline, orbit stamps, and the close of
corner-turn frames (02_time_bases.md R34 to R44; 06_midway_exchange.md R144 to R146). -/

namespace Sys2Proof.Machine

/-! ### What an orbit opens with -/

/-- Opens the orbits up to three beyond the oldest, which ingest accepts (02 R40, R43). -/
def openOrbits (s : State) : State :=
  match s.orb.oldest with
  | none => s
  | some o =>
    let now := s.currentTerms
    let opened := (List.range 4).filter fun k => !thas s.orb.terms (o + k) && (s.progAt (o + k)).isSome
    { s with orb := { s.orb with terms := opened.foldl (fun t k => tput t (o + k) now) s.orb.terms } }

/-- t(x) of 02 R37 in whole nanoseconds, rounded up. -/
def nominalNs (t : OrbitTerms) (fs x : Nat) : Nat := t.zeroS * 10 ^ 9 + t.zeroNs + ceilDiv (x * 10 ^ 9) fs

/-- The ingest deadline of orbit `n` in nanoseconds (02 R38 case 2). -/
def deadlineNs (s : State) (p : Programme) (n : Nat) : Nat :=
  nominalNs (s.terms n) p.fsHz ((n + 1) * p.t + (s.terms n).margin) + (s.terms n).slackUs * 1000

/-- Whether base `b` has reached a time in nanoseconds (02 R42). -/
def State.reached (s : State) (b ns : Nat) : Bool := (s.tb b).hasTime && decide (ns * nsUnit ≤ (s.tb b).count)

/-! ### Orbit stamps (02 R44) -/

/-- Takes the stamps of orbits from TB0 now. -/
def takeStamps (due : List Nat) (s : State) : State :=
  { s with orb := { s.orb with stamps := due.foldl (fun t k => tput t k s.stamp) s.orb.stamps
                               stampTaken := due ++ s.orb.stampTaken } }

/-- The deadline base of orbit `n`, and t(nT) on it. -/
def State.stampAt (s : State) (n : Nat) : Option (Nat × Nat) :=
  (s.progAt n).map fun p => ((s.terms n).base, nominalNs (s.terms n) p.fsHz (n * p.t))

/-- The last orbit of a programme whose t(nT) a count has reached. -/
def orbitBegun (t : OrbitTerms) (p : Programme) (count : Nat) : Nat :=
  (count / nsUnit - (t.zeroS * 10 ^ 9 + t.zeroNs)) * p.fsHz / (10 ^ 9 * max 1 p.t)

/-- The orbits without a stamp that base `b` came to as it went from a count, or from having no time, to its present one. -/
def stampsDue (s : State) (b : Nat) (old : Option Nat) : List Nat :=
  let armed := if (s.slotIn .inEffect).isSome then none else (s.slotIn .armed).map fun i => (s.slot i).swapOrbit
  match (match s.orb.oldest, armed with | some o, some n => some (min o n) | some o, none => some o | none, x => x) with
  | none => []
  | some o =>
    let later := s.heldProgrammes.flatMap fun p =>
      let first := max (o + 4) (orbitBegun s.currentTerms p (old.getD 0))
      (List.range (orbitBegun s.currentTerms p (s.tb b).count + 1 - first)).map (first + ·)
    (((List.range 4).map (o + ·)) ++ later).eraseDups.filter fun n =>
      !s.orb.stampTaken.contains n &&
        match s.stampAt n with
        | some (base, ns) => base == b && s.reached b ns && old.all fun c => decide (c < ns * nsUnit)
        | none => false

/-! ### Frames at the owner (06 R145, R146) -/

/-- The devices whose CLOSE of orbit `n` has not arrived, as a mask. -/
def missingMask (s : State) (p : Programme) (n : Nat) : Nat :=
  p.links.foldl (fun m l => if thas (tget s.ct.closes n []) (s.linkOf l.hp) then m else m ||| 2 ^ l.peer) 0

/-- Whether every CLOSE of orbit `n` has arrived and local ingest has closed it. -/
def frameReady (s : State) (n : Nat) : Bool :=
  match s.orb.oldest, s.progAt n with
  | some o, some p => decide (n < o) && missingMask s p n == 0
  | none, some p => missingMask s p n == 0
  | _, none => false

/-- The ring positions of the blocks of orbit `n` become HELD (07 R161). -/
def holdBlocks (p : Programme) (n : Nat) (s : State) : State :=
  match p.region 1 with
  | none => s
  | some r =>
    let b := p.n / 256
    let dir := (tget s.ct.dir (r.base / 2 ^ 15) []).map fun e =>
      if e.2.state = 1 ∧ n * b ≤ e.2.block ∧ e.2.block < (n + 1) * b then (e.1, { e.2 with state := 2 }) else e
    { s with ct := { s.ct with dir := tput s.ct.dir (r.base / 2 ^ 15) dir } }

/-- Closes one frame; a close by deadline raises EV_MW_FRAME_DEADLINE for each (06 R146). -/
def closeFrameOne (n : Nat) (byDeadline : Bool) (s : State) : State :=
  match s.progAt n with
  | none => { s with ct := { s.ct with frame := some (n + 1) } }
  | some p =>
    let flags := (tget s.ct.closes n []).any (·.2)
    let late := byDeadline || s.orb.byDeadline.contains n || flags
    let rec' : ClosedFrame :=
      { orbit := n, stamp := s.stampOf (s.terms n).base, missing := missingMask s p n, byDeadline := byDeadline }
    let s := holdBlocks p n s
    let s := { s with
      ct := { s.ct with frame := some (n + 1), closes := tdel s.ct.closes n, closed := (rec' :: s.ct.closed).take 16
                        deadlineFrames := if late then n :: s.ct.deadlineFrames else s.ct.deadlineFrames }
      orb := { s.orb with terms := tdel s.orb.terms n } }
    let s := p.links.foldl (fun s l => s.onMw (s.linkOf l.hp) fun m =>
      { m with segNext := m.segNext.filter fun e => decide (n < e.1 / 2 ^ 19) }) s
    if byDeadline then raise 995 { s with ing := { s.ing with framesByDeadline := satInc 32 s.ing.framesByDeadline } } else s

/-- Closes the frames up to `n`, in orbit order, with one cause. -/
def closeFrames (n : Nat) (byDeadline : Bool) (s : State) : State :=
  match s.ct.frame with
  | none => s
  | some o =>
    if n < o then s
    else
      ((List.range (n + 1 - o)).map (o + ·)).foldl (fun s k => closeFrameOne k byDeadline s) s

/-- The last of the orbits from `o` on, at most `k` of them, that fits. -/
def lastWhere (p : Nat → Bool) (o k : Nat) : Option Nat := ((List.range k).reverse.map (o + ·)).find? p

/-- Closes by marker every frame whose CLOSE frames have all arrived. -/
def framesByMarker (s : State) : State :=
  match s.ct.frame with
  | none => s
  | some o => match lastWhere (frameReady s) o (match s.orb.oldest with | some i => i - o | none => 4) with
    | some n => closeFrames n false s
    | none => s

/-! ### Ingest closes (02 R38 to R40) -/

/-- Closes one orbit at ingest. -/
def closeOrbitOne (n : Nat) (byDeadline : Bool) (s : State) : State :=
  let s := if s.orb.stampTaken.contains n then s else takeStamps [n] s
  let s := if byDeadline then
      { s with orb := { s.orb with byDeadline := n :: s.orb.byDeadline }
               ing := { s.ing with orbitsByDeadline := satInc 32 s.ing.orbitsByDeadline } }
    else s
  let s := match s.progAt n with
    | some p => queueCloses p n byDeadline s
    | none => s
  let s := if 3 ≤ s.pwr.stage then
      { s with pwr := { s.pwr with
          shedOrbits := satInc 32 s.pwr.shedOrbits, shedFirst := some (s.pwr.shedFirst.getD n), shedLast := some n } }
    else s
  openOrbits { s with orb := { s.orb with
    oldest := if (s.progAt (n + 1)).isSome then some (n + 1) else none
    stampTaken := s.orb.stampTaken.filter fun k => decide (n < k) } }

/-- Closes the orbits up to `n` at ingest, in orbit order, with one cause; then the frames that became complete. -/
def closeOrbits (n : Nat) (byDeadline : Bool) (s : State) : State :=
  match s.orb.oldest with
  | none => s
  | some o =>
    if n < o then s
    else
      let s := ((List.range (n + 1 - o)).map (o + ·)).foldl (fun s k => closeOrbitOne k byDeadline s) s
      let s := if byDeadline then raise 976 s else s
      noDeadlineCheck (framesByMarker s)

/-- The frontier reaches the close points of open orbits (02 R38 case 1). -/
def frontierClose (s : State) : State :=
  match s.orb.oldest, s.orb.frontier with
  | some o, some x =>
    match lastWhere (fun n => match s.progAt n with
        | some p => decide ((n + 1) * p.t - 1 + (s.terms n).margin ≤ x)
        | none => false) o 4 with
    | some n => closeOrbits n false s
    | none => s
  | _, _ => s

/-- Whether the deadline of orbit `n`, plus a slack in nanoseconds, has passed (02 R38 case 2, 06 R145). -/
def deadlinePassed (s : State) (extra : Nat) (n : Nat) : Bool :=
  match s.progAt n with
  | some p => s.reached (s.terms n).base (deadlineNs s p n + extra)
  | none => false

/-- The greatest of the numbers. -/
def greatest : List Nat → Option Nat
  | [] => none
  | n :: l => some (l.foldl max n)

/-- The last orbit from `o` on that fits, where fitting is a deadline of R38 plus a slack in nanoseconds on the orbit's base:
one of the first `k`, whose terms may differ, or the last that the time of the present base has reached in a programme, or
the last that a programme owns. -/
def lastDue (s : State) (p : Nat → Bool) (extra o k : Nat) : Option Nat :=
  let t := s.currentTerms
  let spent := (s.tb t.base).ns - (t.zeroS * 10 ^ 9 + t.zeroNs + t.slackUs * 1000 + extra)
  let far := s.heldProgrammes.map fun q => (spent * q.fsHz / 10 ^ 9 - t.margin) / max 1 q.t - 1
  let ends := s.heldSlots.flatMap fun x => (x.swapOrbit :: x.haltOrbit.toList).map (· - 1)
  greatest ((((List.range k).map (o + ·)) ++ far ++ ends).filter fun n => decide (o ≤ n) && p n)

/-- Closes at ingest every orbit whose deadline has passed. -/
def orbitsDue (s : State) : State :=
  match s.orb.oldest with
  | none => s
  | some o => match lastDue s (deadlinePassed s 0) 0 o 4 with
    | some n => closeOrbits n true s
    | none => s

/-- Closes every frame whose deadline has passed, ingest first (06 R145). -/
def framesDue (s : State) : State :=
  match s.ct.frame with
  | none => s
  | some o =>
    let open' := match s.orb.oldest with | some i => i + 4 - o | none => 4
    match lastDue s (fun n => deadlinePassed s ((s.terms n).frameSlackUs * 1000) n) (s.currentTerms.frameSlackUs * 1000) o open' with
    | some n => closeFrames n true (closeOrbits n true s)
    | none => s

/-! ### The commands -/

/-- ORBIT_DEADLINE_CLOSE: after `dt` core cycles the deadline base reaches an orbit's deadline (02 R38, R39, R42). -/
def execOrbitDeadlineClose (dt : Nat) (s : State) : Host.Outcome State Fault Refusal := .next (orbitsDue (s.advance dt))

/-- FRAME_DEADLINE_CLOSE: after `dt` core cycles a frame's deadline expires (06 R145). -/
def execFrameDeadlineClose (dt : Nat) (s : State) : Host.Outcome State Fault Refusal := .next (framesDue (s.advance dt))

/-- The count of a running base before the advance of the last `dt` cycles, at least one; none where it began after that. -/
def State.countBefore (s : State) (b dt : Nat) : Option Nat :=
  let d := max dt 1 * (s.tb b).increment
  if d ≤ (s.tb b).count then some ((s.tb b).count - d) else none

/-- A pulse falls due on a pin: it rises, or its high time is extended (02 R45). -/
def pulseDue (n : Nat) (s : State) : State :=
  let b := s.tb n
  if !b.hasTime || b.ppsHold.isSome then s
  else s.onTb n fun b => { b with ppsOut := some (b.count + s.tbKey n 0xD * 1000 * nsUnit) }

/-- Takes every stamp that the advance of the last `dt` cycles reached; where there is one, the pins in mode 2 give their
pulse (02 R44, R45). -/
def stampsReached (dt : Nat) (s : State) : State :=
  let due := (List.range 4).flatMap fun b => stampsDue s b (s.countBefore b dt)
  if due.isEmpty then s
  else (List.range 4).foldl (fun s n =>
    if s.tbKey n 0xC = 2 then pulseDue n (s.onTb n fun b => { b with ppsHold := none }) else s) (takeStamps due s)

/-- ORBIT_STAMP: after `dt` core cycles the deadline base reaches t(nT), and the stamp is taken from TB0; pins in mode 2
give their pulse (02 R44, R45). -/
def execOrbitStamp (dt : Nat) (s : State) : Host.Outcome State Fault Refusal :=
  .next (stampsReached dt (s.advance dt))

end Sys2Proof.Machine
end

