-- ==== Sys2Proof/Machine/Channel.lean ====
section
/-! DEFINITION. The channeliser: integer operations, the slicer and the fine filterbank, to the bit (05_channeliser.md). -/

namespace Sys2Proof.Machine

/-! ### Integer operations (05 R99, R100) -/

/-- A complex word. -/
abbrev Cplx := Int × Int

/-- Truncation toward zero. -/
def trunc0 (x : Int) (sh : Nat) : Int := if x < 0 then -((-x) / (2 ^ sh : Nat)) else x / (2 ^ sh : Nat)
/-- Clamps to a range. -/
def clampInt (lo hi x : Int) : Int := if x < lo then lo else if hi < x then hi else x
/-- The bound of a 24-bit working word. -/
def sat24 (x : Int) : Int := clampInt (-8388608) 8388607 x
/-- The symmetric bound of a `b`-bit output. -/
def satsym (x : Int) (b : Nat) : Int := clampInt (-((2 : Int) ^ (b - 1) - 1)) ((2 : Int) ^ (b - 1) - 1) x

/-- Both components. -/
def cmap (f : Int → Int) (z : Cplx) : Cplx := (f z.1, f z.2)
/-- Sums and differences of words. -/
def cadd (a b : Cplx) : Cplx := (a.1 + b.1, a.2 + b.2)
/-- The difference of two words. -/
def csub (a b : Cplx) : Cplx := (a.1 - b.1, a.2 - b.2)

/-- pi in units of 2^-96. -/
def piFix : Int := 248902613312231085230521944622

/-- `n` terms of the cosine series: `t` the term in units of 2^-96, `x2` the square of the angle. -/
def cosSeries (n k : Nat) (t x2 : Int) : Int :=
  match n with
  | 0 => 0
  | n + 1 => t - cosSeries n (k + 1) (t * x2 / 2 ^ 96 / (((2 * k + 1) * (2 * k + 2) : Nat) : Int)) x2

/-- round(131,071 cos(2 pi r / 16,384)) in the first quarter turn. -/
def cosQuarter (r : Nat) : Int :=
  let x := piFix * r / 8192
  (131071 * cosSeries 24 0 (2 ^ 96) (x * x / 2 ^ 96) * 2 + 2 ^ 96) / 2 ^ 97

/-- C(i) of 05 R100. -/
def tableC (i : Nat) : Int :=
  let r := i % 4096
  match i % 16384 / 4096 with
  | 0 => cosQuarter r
  | 1 => -cosQuarter (4096 - r)
  | 2 => -cosQuarter r
  | _ => cosQuarter (4096 - r)

/-- S(i) of 05 R100. -/
def tableS (i : Nat) : Int := tableC (i + 12288)

/-- Multiplication by exp(-j 2 pi i / 16,384) (05 R100). -/
def rotate (z : Cplx) (i : Nat) : Cplx :=
  match i with
  | 0 => z
  | 4096 => (z.2, -z.1)
  | 8192 => (-z.1, -z.2)
  | 12288 => (-z.2, z.1)
  | _ => (trunc0 (z.1 * tableC i + z.2 * tableS i) 17, trunc0 (z.2 * tableC i - z.1 * tableS i) 17)

/-- Bounds every word of a list to 24 bits; also says whether one clipped. -/
def satAll (l : List Cplx) : List Cplx × Bool :=
  let m := l.map (cmap sat24)
  (m, m != l)

/-! ### Filter and FFT (05 R103, R104, R111) -/

/-- Element `b` of the FFT input: `hist` holds the last blocks, newest first; a block not there counts as zero. -/
def firElement (h : List Int) (f taps sh : Nat) (hist : List (List Cplx × Bool)) (b : Nat) : Cplx :=
  let acc := (List.range taps).foldl (fun acc p =>
    let c := h.getD (p * f + f - 1 - b) 0
    let y := ((hist[p]?.map (·.1)).getD []).getD b (0, 0)
    cadd acc (c * y.1, c * y.2)) ((0, 0) : Cplx)
  cmap (fun x => trunc0 x sh) acc

/-- The filter over a whole block, bounded to 24 bits. -/
def fir (h : List Int) (f taps sh : Nat) (hist : List (List Cplx × Bool)) : List Cplx × Bool :=
  satAll ((List.range f).map (firElement h f taps sh hist))

/-- Two lists taken in turn. -/
def interleave {α : Type} : List α → List α → List α
  | [], bs => bs
  | a :: as, bs => match bs with
    | [] => a :: as
    | b :: bs => a :: b :: interleave as bs

/-- The radix-2 decimation-in-frequency FFT of 05 R104 in natural order: `l` stages left, stage number `s`, shift word `w`. -/
def fft (l s w : Nat) (v : List Cplx) : List Cplx × Bool :=
  match l with
  | 0 => (v, false)
  | l + 1 =>
    let h := 2 ^ l
    let sh := bits w (2 * s + 1) (2 * s)
    let a := v.take h
    let b := v.drop h
    let (top, c1) := satAll ((a.zip b).map fun e => cmap (fun x => trunc0 x sh) (cadd e.1 e.2))
    let (bot, c2) := satAll (((a.zip b).zipIdx).map fun e =>
      cmap (fun x => trunc0 x sh) (rotate (csub e.1.1 e.1.2) (e.2 * 16384 / (2 * h))))
    let (x0, c3) := fft l (s + 1) w top
    let (x1, c4) := fft l (s + 1) w bot
    (interleave x0 x1, c1 || c2 || c3 || c4)

/-- The requantiser: truncation, then the symmetric bound; also says whether it clipped (05 R106, R113). -/
def requant (sh b : Nat) (z : Cplx) : Cplx × Bool :=
  let t := cmap (fun x => trunc0 x sh) z
  let o := cmap (fun x => satsym x b) t
  (o, o != t)

/-! ### Stage A (05 R101 to R106) -/

/-- The component width of a FORMAT byte (04 Table 4.4). -/
def formatWidth (fmt : Nat) : Nat := 8 + 2 * bits fmt 3 1

/-- Digitiser sample `x` as it enters stage A: its 24-bit word, and whether it is valid (05 R101, R119). -/
def inputSample (p : Programme) (g : Tab Granule) (x : Nat) : Cplx × Bool :=
  match tfind g (x / 64) with
  | some gr =>
    if gr.valid then
      let v := gr.samples.getD (x % 64) (0, 0)
      (cmap (fun c => c * (2 ^ (24 - formatWidth p.format) : Nat)) v, true)
    else ((0, 0), false)
  | none => ((0, 0), false)

/-- The numerically controlled oscillator (05 R102), before its bound. -/
def mixSample (r : ProgPath) (x : Nat) (v : Cplx) : Cplx :=
  if bit r.flags 0 then
    let ph := (r.ncoPhase0 + x % 2 ^ 32 * r.ncoInc) % 2 ^ 32
    rotate v ((ph + 2 ^ 17) % 2 ^ 32 / 2 ^ 18)
  else v

/-- A block of mixed samples from sample `x` on, with its validity and whether a word clipped. -/
def mixBlock (p : Programme) (r : ProgPath) (g : Tab Granule) (x : Nat) : List Cplx × Bool × Bool :=
  let raw := (List.range p.f).map fun i => inputSample p g (x + i)
  let (y, clip) := satAll (raw.zipIdx.map fun e => mixSample r (x + e.2) e.1.1)
  (y, raw.all (·.2), clip)

/-- log2 of a power of two. -/
def log2 (n : Nat) : Nat := Nat.log2 n

/-- The slicer over a history whose newest block is the current one: the S slice samples before requantisation, and
whether a word clipped (05 R103 to R105). -/
def slicer (p : Programme) (r : ProgPath) (hist : List (List Cplx × Bool)) : List Cplx × Bool :=
  let (v, c1) := fir p.hA p.f p.pA r.slFirShift hist
  let (x, c2) := fft (log2 p.f) 0 p.slShift v
  ((List.range p.slices).map fun k => x.getD ((p.binBase + k) % p.f) (0, 0), c1 || c2)

/-- Whether a history fills a window of `taps` valid blocks (05 R119). -/
def windowValid (taps : Nat) (hist : List (List Cplx × Bool)) : Bool :=
  hist.length == taps && hist.all (·.2)

/-- The channeliser state of a path. -/
def State.chan (s : State) (path : Nat) : ChanPath := tget s.ch.paths path {}

/-- Changes the channeliser state of a path. -/
def State.onChan (s : State) (path : Nat) (f : ChanPath → ChanPath) : State :=
  { s with ch := { s.ch with paths := tput s.ch.paths path (f (s.chan path)) } }

/-- Stage B of a path and slice. -/
def State.fine (s : State) (path slice : Nat) : FinePath := tget s.ch.fine (path * 256 + slice) {}

/-- Changes stage B of a path and slice. -/
def State.onFine (s : State) (path slice : Nat) (f : FinePath → FinePath) : State :=
  { s with ch := { s.ch with fine := tput s.ch.fine (path * 256 + slice) (f (s.fine path slice)) } }

/-- Adds to counter `i` of R124 of a path. -/
def chanAdd (path i k : Nat) (s : State) : State :=
  s.onChan path fun c => { c with counters := tmod c.counters i 0 fun n => satAdd 32 n k }

/-- Counts internal clips: EV_CH_SATURATION (05 R126). -/
def countClips (path i k : Nat) (s : State) : State :=
  if k = 0 then s else raise 988 (chanAdd path i k s)

/-- Requantiser clips in an orbit: the count of the orbit with the limit that it began with, kept for the latest orbits; also
whether they take it past the limit (05 R125, R126). -/
def addClips (t : Tab (Nat × Nat)) (limit n k : Nat) : Tab (Nat × Nat) × Bool :=
  let old := tget t n (0, limit)
  ((tput t n (old.1 + k, old.2)).filter fun e => decide (n < e.1 + 20), decide (old.1 ≤ old.2) && decide (old.2 < old.1 + k))

/-- Counts requantiser clips of stage A in orbit `n`; when the orbit's exceed CH_CLIP_LIMIT, EV_CH_REQ_CLIP (05 R125, R126). -/
def reqClipsA (path n k : Nat) (s : State) : State :=
  let (t, past) := addClips (s.chan path).clipsA (s.eff 0x0601) n k
  let s := (chanAdd path 1 k s).onChan path fun c => { c with clipsA := t }
  if past then raise 989 s else s

/-- Counts requantiser clips of stage B in orbit `n`, over the path's slices; when the orbit's exceed CH_CLIP_LIMIT,
EV_CH_REQ_CLIP (05 R125, R126). -/
def reqClipsB (path n k : Nat) (s : State) : State :=
  let (t, past) := addClips (s.chan path).clipsB (s.eff 0x0601) n k
  let s := (chanAdd path 3 k s).onChan path fun c => { c with clipsB := t }
  if past then raise 989 s else s

/-- Where stage A of a path stands: the run, its programme and its next sample (11 R270). -/
def stageA (s : State) (path : Nat) : Option (Nat × Programme × Nat) :=
  s.stageAt (s.chan path).runA (s.chan path).nextA (·.t) (·.localPaths.contains path)

/-- The stage A parameters of a programme that apply to a path (05 R121). -/
def Programme.parsA (p : Programme) (path : Nat) : StageAPars :=
  { slices := p.slices, r := p.r, pA := p.pA, binBase := p.binBase, slShift := p.slShift, hA := p.hA
    record := p.paths.find? fun r => r.path == path }

/-- The stage B parameters of a programme that apply to a path (05 R121). -/
def Programme.parsB (p : Programme) (path : Nat) : StageBPars :=
  { c := p.c, pB := p.pB, prototype := p.prototype, groupDelay := p.groupDelay, fbShift := p.fbShift, precision := p.precision
    dcShift := p.dcShift, hB := p.hB, record := p.paths.find? fun r => r.path == path }

/-- Whether a swap from one programme to another empties some history (05 R121). -/
def resetsHistory (a b : Programme) : Bool :=
  (b.localPaths.any fun q => a.localPaths.contains q && a.parsA q != b.parsA q) ||
  (b.paths.any fun r => (a.paths.any fun x => x.path == r.path) && a.parsB r.path != b.parsB r.path)

/-- The stage A history that the block at sample `x` goes on from: none under other parameters, and none after a gap, which
leaves no valid block in any window (05 R119, R121). -/
def ChanPath.history (c : ChanPath) (p : Programme) (path x : Nat) : List (List Cplx × Bool) :=
  if c.parsA = some (p.parsA path) ∧ c.nextA = some x then c.histA else []

/-- The stage B history that fine sample `m` goes on from. -/
def FinePath.history (c : FinePath) (p : Programme) (path m : Nat) : List (List Cplx × Bool) :=
  if c.parsB = some (p.parsB path) ∧ c.next = some m then c.hist else []

/-- The estimator that the next block goes on from: under other parameters 0; across a gap it is held, as over invalid samples
(05 R110, R121). -/
def FinePath.estimator (c : FinePath) (p : Programme) (path : Nat) : Cplx :=
  if c.parsB = some (p.parsB path) then c.d else (0, 0)

/-- Whether a frame that passed its FCS check while orbit `n` was open still waits in a receive buffer (04 R84). -/
def State.frameWaits (s : State) (n : Nat) : Bool :=
  s.hps.any fun e => e.2.buffer.any fun f => match f.oldest with | some o => decide (o ≤ n) | none => false

/-- Whether every sample of a block is held, or its orbit closed at ingest and every frame that was judged against it placed, so
that nothing more can arrive. -/
def blockReady (s : State) (p : Programme) (path x : Nat) : Bool :=
  let g := (tget s.ing.paths path {}).granules
  let closed := (match s.orb.oldest with
    | some o => decide (x / p.t < o)
    | none => true) && !s.frameWaits (x / p.t)
  closed || (List.range p.f).all fun i => thas g ((x + i) / 64)

/-- Places a slice sample at stage B (05 R106, 06 R128). -/
def placeSlice (path slice m : Nat) (v : Option Cplx) (s : State) : State :=
  s.onFine path slice fun f => { f with samples := tput f.samples m v }

/-- Sends a slice sample on its way: to this device's stage B, or over the link to its owner (06 R128, R129). -/
def routeSlice (p : Programme) (path m slice : Nat) (v : Option Cplx) (s : State) : State :=
  if p.owners.getD slice 0 = p.device then placeSlice path slice m v s
  else match p.linkFor path slice with
    | some l => sendSample p l path slice m v s
    | none => s

/-- One block of stage A of a path (05 R101 to R106). An internal clip counts for all the slices (DESIGN CHOICE, log entry 167). -/
def slicerBlock (path run : Nat) (p : Programme) (x : Nat) (r : ProgPath) (s : State) : State :=
  let c := s.chan path
  let (y, ok, c1) := mixBlock p r (tget s.ing.paths path {}).granules x
  let hist := ((y, ok) :: c.history p path x).take p.pA
  let (xs, c2) := slicer p r hist
  let valid := windowValid p.pA hist
  let outs := xs.map (requant r.slReqShift 12)
  let m := x / p.f
  let s := s.onChan path fun c => { c with
    histA := hist, nextA := some (x + p.f), runA := run, parsA := some (p.parsA path) }
  let s := { s with ing := { s.ing with paths := tmod s.ing.paths path {} fun q =>
    { q with granules := q.granules.filter fun e => decide (x + p.f < (e.1 + 1) * 64) } } }
  let s := countClips path 0 (if c1 || c2 then p.slices else 0) s
  let s := reqClipsA path (x / p.t) (outs.countP (·.2)) s
  let s := outs.zipIdx.foldl (fun s e => routeSlice p path m e.2 (if valid then some e.1.1 else none) s) s
  if (x + p.f) % p.t = 0 then p.links.foldl (fun s l => closeIfDone l s) s else s

/-- SLICER_BLOCK: stage A takes the next block of a local path whose samples are all held, or whose orbit has closed. -/
def execSlicerBlock (path : Nat) (s : State) : Host.Outcome State Fault Refusal :=
  .next (match stageA s path with
    | some (run, p, x) => match p.paths.find? fun r => r.path == path with
      | some r => if blockReady s p path x then slicerBlock path run p x r s else s
      | none => s
    | none => s)

/-! ### Stage B (05 R108 to R113) -/

/-- Bits per component of the engine precision (05 R113). -/
def Programme.engineBits (p : Programme) : Nat := match p.precision with | 0 => 12 | 1 => 8 | _ => 4

/-- The DC block over the samples of a block in order: the output words, the estimator, and whether a word clipped
(05 R109, R110). An invalid sample enters as zero and holds the estimator. -/
def dcBlock (p : Programme) (on freeze : Bool) (d : Cplx) : List (Option Cplx) → List Cplx × Cplx
  | [] => ([], d)
  | v :: vs =>
    let w := cmap (· * 4096) (v.getD (0, 0))
    if on then
      let out := csub w (cmap (fun x => trunc0 x 16) d)
      let d' := if v.isSome && !freeze
        then cadd d (cmap (fun x => trunc0 x p.dcShift) (csub (cmap (· * 65536) w) d)) else d
      let (rest, dEnd) := dcBlock p on freeze d' vs
      (out :: rest, dEnd)
    else
      let (rest, dEnd) := dcBlock p on freeze d vs
      (w :: rest, dEnd)

/-- The table index of the fine rotation for `q` channels from the centre and fine sample `m` of the orbit (05 R112). -/
def fineIndex (e : DelayEntry) (q : Int) (m : Nat) : Nat :=
  let p48 := ((e.phase0 : Int) * 65536 + q * e.slope * 65536 + m * e.rate * 65536 + q * m * e.slopeRate) % 2 ^ 48
  ((p48 + 2 ^ 33) % 2 ^ 48 / 2 ^ 34).toNat

/-- q of local channel `k` (05 R111). -/
def channelOffset (c k : Nat) : Int := if c = 1 then 0 else (k : Int) - (c / 2 : Nat)

/-- The C channels of a fine sample before the rotation, and whether a word clipped. -/
def fineBank (p : Programme) (r : ProgPath) (hist : List (List Cplx × Bool)) : List Cplx × Bool :=
  let (v, c1) := fir p.hB p.c p.pB r.fbFirShift hist
  let (x, c2) := fft (log2 p.c) 0 p.fbShift v
  ((List.range p.c).map fun k => x.getD ((k + p.c / 2) % p.c) (0, 0), c1 || c2)

/-- The bytes of stored samples in the engine precision (07 R159). -/
def storedBytes (precision : Nat) (z : Cplx) : Bytes :=
  match precision with
  | 0 => be 3 (ofSigned 12 z.1 * 4096 + ofSigned 12 z.2)
  | 1 => be 1 (ofSigned 8 z.1) ++ be 1 (ofSigned 8 z.2)
  | _ => be 1 (ofSigned 4 z.1 * 16 + ofSigned 4 z.2)

/-- The size of a write buffer: 8 MiB (07 R160). -/
def writeBufferSize : Nat := 8 * 2 ^ 20

/-- The bytes that queued runs take. -/
def queuedBytes (q : List QueuedRun) : Nat := q.foldl (fun n r => n + r.bytes.length) 0

/-- The samples of a run dropped while the controller is frozen, counted as missing of its path (07 R177; log entry 134). -/
def runMissing (r : QueuedRun) (s : State) : State :=
  match s.progGen r.gen with
  | some p => match p.paths[r.path]? with
    | some x => { s with ing := { s.ing with paths := tmod s.ing.paths x.path {} fun q => { q with missing := satAdd 32 q.missing 64 } } }
    | none => s
  | none => s

/-- A run reaches the corner-turn writer: queued, or dropped with EV_CT_WRITE_DROP when the buffer is full or the
controller is frozen (07 R160, R177). -/
def queueRun (r : QueuedRun) (s : State) : State :=
  if s.hbm.state = 1 ∨ writeBufferSize < queuedBytes s.ct.wbuf + r.bytes.length then
    raise 642 { (if s.hbm.state = 1 then runMissing r s else s) with ct := { s.ct with writeDrops := satInc 32 s.ct.writeDrops } }
  else { s with ct := { s.ct with wbuf := s.ct.wbuf ++ [r] } }

/-- Whether capture writes are held: shedding stages 1 to 5, or a frozen controller (07 R167). -/
def captureHeld (s : State) : Bool := s.pwr.low != 0 || s.pwr.latched != [] || s.hbm.state == 1

/-- Whether the capture takes the blocks of orbit `n` (07 Table 7.3). -/
def captureTakes (s : State) (n : Nat) : Bool := s.cap.state == 1 || (s.cap.state == 2 && decide (n ≤ s.cap.last))

/-- The runs of an orbit in the captured range. -/
def captureRuns (s : State) (n : Nat) : Nat :=
  match tfind s.ch.begunTerms n, s.progAt n with
  | some b, some p => b.chCount * b.pathCount * (p.n / 64)
  | _, _ => 0

/-- The capture becomes FROZEN once the runs of its last orbit are all written or dropped (07 Table 7.3). -/
def captureFreezeIfDone (s : State) : State :=
  if s.cap.state = 2 ∧ captureRuns s s.cap.last ≤ tget s.cap.done s.cap.last 0 ∧
      (match s.ch.begun with | some b => decide (s.cap.last ≤ b) | none => false) = true then
    raise 644 { s with cap := { s.cap with state := 3 } }
  else s

/-- One more run of orbit `n` is written, dropped or missed; the newest complete orbit follows (07 R167). -/
def captureCount (n : Nat) (s : State) : State :=
  let d := tget s.cap.done n 0 + 1
  let s := { s with cap := { s.cap with done := (tput s.cap.done n d).filter fun e => decide (n < e.1 + 8) } }
  let s := if d = captureRuns s n then
      { s with cap := { s.cap with newest := some n, oldest := match s.cap.oldest with | some o => some o | none => some n } }
    else s
  captureFreezeIfDone s

/-- A run of the captured range passes in a state that does not write it (07 Table 7.3). -/
def capturePass (n : Nat) (s : State) : State :=
  { s with cap := { s.cap with done := (tmod s.cap.done n 0 (· + 1)).filter fun e => decide (n < e.1 + 8) } }

/-- A run of the captured range reaches the capture writer (07 R166, R167). -/
def captureRun (n : Nat) (r : QueuedRun) (s : State) : State :=
  match tfind s.ch.begunTerms n with
  | some b =>
    if decide (b.chFirst ≤ r.kappa) && decide (r.kappa < b.chFirst + b.chCount) && decide (b.pathFirst ≤ r.path) &&
        decide (r.path < b.pathFirst + b.pathCount)
    then
      if !captureTakes s n then (if s.cap.state = 0 then s else capturePass n s)
      else if captureHeld s then captureCount n s
      else { s with cap := { s.cap with wbuf := s.cap.wbuf ++ [{ r with since := s.cycle }] } }
    else s
  | none => s

/-- Held capture writes resume: the wait for the regulator counts from here (07 R167). -/
def captureResumes (s : State) : State :=
  if captureHeld s then s
  else { s with cap := { s.cap with wbuf := s.cap.wbuf.map fun r => { r with since := s.cycle } } }

/-- The key of a validity block of a path ordinal and owned slice. -/
def blockKey (block ord sigma : Nat) : Nat := (block * 2048 + ord) * 256 + sigma

/-- The size of the capture ring and its map for a range (07 R159, R163, R166). -/
def captureRingSize (p : Programme) (chs paths w : Nat) : Nat := paths * chs * w * 256 * p.z

/-- Rounded up to 32 KiB. -/
def up32k (n : Nat) : Nat := (n + 32767) / 32768 * 32768

/-- Why the captured range does not fit the programme: 1 it runs past its ring channels or paths, 2 the ring is of another size; 0 it
fits (07 R180). -/
def captureMisfit (p : Programme) (s : State) (r : ProgRegion) : Nat :=
  let (cf, cc, pf, pc) := (s.eff 0x0706, s.eff 0x0707, s.eff 0x0708, s.eff 0x0709)
  if p.ringChannels < cf + cc ∨ p.pathCount < pf + pc then 1
  else if r.size ≠ up32k (captureRingSize p cc pc r.depth) then 2 else 0

/-- Capture at the beginning of an orbit: its keys take effect; a range that does not fit holds it in OFF, and a capture that is
ARMED or TRIGGERED goes there (07 R166, R167, R180; log entry 135). -/
def captureBegin (p : Programme) (s : State) : State :=
  let off := fun (why : Nat) (s : State) => { s with cap := { s.cap with state := 0, reason := why } }
  if s.cap.state = 3 then s
  else if s.eff 0x0703 = 0 then if s.cap.state = 2 then s else off 0 s
  else match p.region 5 with
    | none => off 0 s
    | some r =>
      let why := captureMisfit p s r
      if why ≠ 0 then (if s.cap.reason = why then off why s else raise 645 (off why s))
      else if s.cap.state ≠ 0 then s
      else { s with cap := { s.cap with state := 1, reason := 0, ring := [], accepted := [], done := [], newest := none, oldest := none } }

/-- Stage B begins orbit `n`: CH_DC_FREEZE and the capture keys take effect (05 R110, 07 R180). An orbit that a retiring programme
still runs behind the first of the programme in effect is none that this one begins (05 R118). -/
def beginOrbit (run : Nat) (p : Programme) (n : Nat) (s : State) : State :=
  if thas s.ch.begunTerms n then s
  else
    let behind := match s.slotIn .inEffect with
      | some i => (s.slot i).run != run && decide ((s.slot i).swapOrbit ≤ n)
      | none => false
    let newest := !behind && match s.ch.begun with | some b => decide (b < n) | none => true
    let s := if newest then captureBegin p s else s
    let b : BegunOrbit := { freeze := s.eff 0x0600 == 1, chFirst := s.eff 0x0706, chCount := s.eff 0x0707,
                            pathFirst := s.eff 0x0708, pathCount := s.eff 0x0709, post := s.eff 0x0705 }
    { s with ch := { s.ch with begun := if newest then some n else s.ch.begun
                               begunTerms := (tput s.ch.begunTerms n b).filter fun e => decide (n < e.1 + 20) } }

/-- Where stage B of a path and slice stands: the run, its programme and its next fine sample (11 R270). -/
def stageB (s : State) (path slice : Nat) : Option (Nat × Programme × Nat) :=
  s.stageAt (s.fine path slice).runB (s.fine path slice).next (·.n)
    fun p => p.owned.contains slice && (p.ordinal path).isSome

/-- Whether stage A of a path has taken every sample up to fine sample `m`; of a path that another device ingests there is
nothing to take. -/
def stageAPast (s : State) (p : Programme) (path m : Nat) : Bool :=
  !p.localPaths.contains path || s.stagePast (s.chan path).runA (s.chan path).nextA (m / p.n) ((m + 1) * p.c * p.f)

/-- Whether every slice sample of fine sample `m` has been placed, or its frame has closed and local stage A is past it (06
R146). -/
def fineReady (s : State) (p : Programme) (path slice m : Nat) : Bool :=
  ((match s.ct.frame with | some o => decide (m / p.n < o) | none => false) && stageAPast s p path m) ||
    (List.range p.c).all fun i => thas (s.fine path slice).samples (m * p.c + i)

/-- A programme takes effect at orbit `n` with none before it: the stages that no retiring programme still runs begin afresh, with what
they held of the programme before; their histories and estimators stay, to be used only without a gap. What the stages took of an orbit
stays where a retiring programme still runs that orbit (05 R110, R119, R121, R125). -/
def stagesAfresh (n : Nat) (s : State) : State :=
  let idleA := fun (path : Nat) => (stageA s path).isNone
  let idleB := fun (key : Nat) => (stageB s (key / 256) (key % 256)).isNone
  let runs := fun (k : Nat) => decide (k < n) && s.liveRuns.any fun e => decide (e.1.swapOrbit ≤ k) && !s.runStops e.1 k
  { s with
    ch := { s.ch with
      paths := s.ch.paths.map fun (e : Nat × ChanPath) =>
        (e.1, { e.2 with clipsA := e.2.clipsA.filter fun c => runs c.1, clipsB := e.2.clipsB.filter fun c => runs c.1 })
      fine := s.ch.fine.map fun (e : Nat × FinePath) =>
        (e.1, if idleB e.1 then { e.2 with samples := [], tail := none, run := [], blockOk := true } else e.2)
      begun := none
      begunTerms := s.ch.begunTerms.filter fun e => runs e.1 }
    hps := s.hps.map fun (h : Nat × HalfPort) =>
      (h.1, { h.2 with mw := { h.2.mw with building := h.2.mw.building.filter fun e => !idleA (e.1 / 256) } }) }

/-- The run of one ring channel out of 64 gathered fine samples. -/
def runOf (p : Programme) (ord sigma m k : Nat) (run : List (List Cplx)) : QueuedRun :=
  { gen := p.generation, path := ord, kappa := sigma * p.c + k, block := m / 256, sub := m % 256 / 64,
    bytes := run.flatMap fun x => storedBytes p.precision (x.getD k (0, 0)) }

/-- One block of stage B of a path and owned slice (05 R108 to R121, 07 R160). An internal clip before the rotation counts for all the
channels, and a missing delay entry once for each slice (DESIGN CHOICE, log entry 167). -/
def fineBlock (path slice ord sigma run' : Nat) (p : Programme) (r : ProgPath) (m : Nat) (s : State) : State :=
  let n := m / p.n
  let s := beginOrbit run' p n s
  let entry := s.delayEntry p n sigma ord
  let s := if m % p.n = 0 ∧ entry.isNone = true then raise 990 (chanAdd path 5 1 s) else s
  let c := s.fine path slice
  let e : DelayEntry := entry.getD { coarse := 0, phase0 := 0, slope := 0, rate := 0, slopeRate := 0, flags := 0 }
  let freeze := bit e.flags 1 || (match tfind s.ch.begunTerms n with | some b => b.freeze | none => false)
  let ins := (List.range p.c).map fun i => (tfind c.samples (m * p.c + i)).getD none
  let (raw, d) := dcBlock p (bit r.flags 1) freeze (c.estimator p path) ins
  let (u, c1) := satAll raw
  let hist := ((u, ins.all Option.isSome) :: c.history p path m).take p.pB
  let (x, c2) := fineBank p r hist
  let rot := x.zipIdx.map fun z => rotate z.1 (fineIndex e (channelOffset p.c z.2) (m % p.n))
  let fin := rot.map fun z => (cmap sat24 z, decide (cmap sat24 z ≠ z))
  let outs := fin.map fun z => requant r.fbReqShift p.engineBits z.1
  let valid := windowValid p.pB hist && entry.isSome && !bit e.flags 0
  let samples := if valid then outs.map (·.1) else outs.map fun _ => ((0, 0) : Cplx)
  let internal := if c1 || c2 then p.c else fin.countP (·.2)
  let run := (if m % 64 = 0 then [] else c.run) ++ [samples]
  let ok := (if m % 256 = 0 then true else c.blockOk) && valid
  let s := s.onFine path slice fun c =>
    { c with next := some (m + 1), runB := run', parsB := some (p.parsB path), hist := hist, d := d, run := if run.length = 64 then [] else run
             blockOk := ok, frozen := freeze || !(ins.getLast?.getD none).isSome
             samples := c.samples.filter fun e => decide ((m + 1) * p.c ≤ e.1) }
  let s := countClips path 2 internal s
  let s := reqClipsB path n (outs.countP (·.2)) s
  let s := if valid then s else chanAdd path 4 1 s
  let s := if m % 256 = 255 then
      { s with ct := { s.ct with valid := tmod s.ct.valid p.generation [] fun t => tput t (blockKey (m / 256) ord sigma) ok } }
    else s
  if run.length = 64 then
    (List.range p.c).foldl (fun s k =>
      let q := runOf p ord sigma m k run
      queueRun q (captureRun n q s)) s
  else s

/-- FINE_FILTERBANK_BLOCK: stage B takes the next block of a path and owned slice whose samples have been placed, or whose
frame has closed. -/
def execFineFilterbankBlock (path slice : Nat) (s : State) : Host.Outcome State Fault Refusal :=
  .next (match stageB s path slice with
    | some (run, p, m) =>
      match p.paths.find? (fun r => r.path == path), p.ordinal path, p.sigma slice with
      | some r, some ord, some sigma =>
        if fineReady s p path slice m then fineBlock path slice ord sigma run p r m s else s
      | _, _, _ => s
    | none => s)

end Sys2Proof.Machine
end

