-- ==== Sys2Proof/Machine/CornerTurn.lean ====
section
/-! DEFINITION. The HBM address map, the corner-turn writer and its directory, the transient capture, and the HBM
controller's errors, freeze and thaw (07_corner_turn_memory.md R156 to R163, R166, R167, R173 to R179). -/

namespace Sys2Proof.Machine

/-- A physical location (07 R156). -/
structure HbmPlace where
  stack : Nat
  pc : Nat
  bank : Nat
  row : Nat
  column : Nat
  deriving DecidableEq, Repr

/-- Where an address lies: stack, pseudo-channel within the stack (chan * 2 + pc), bank, row and column (07 R156). -/
def hbmPlace (v : Variant) (a : Nat) : HbmPlace :=
  let q := stacksOf v * 32
  let u := a / 256
  let pcg := u % q
  let w := u / q
  { stack := pcg % (q / 32), pc := pcg / (q / 32), bank := w / 4 % 48, row := w / 192, column := w % 4 * 8 + a % 256 / 32 }

/-- Whether a granule that a port would read in a range was to be delivered marked bad (07 R178). -/
def State.badIn (s : State) (port a n : Nat) (e : Nat × Nat) : Bool :=
  s.fuses.variant.mergedPort e.2 == s.fuses.variant.mergedPort port && decide (e.1 < a + n) && decide (a < e.1 + 64)

/-- Takes the bad mark of the granules of a read, if one was left for this port (07 R178). Also says whether there was. -/
def takeBad (port a n : Nat) (s : State) : State × Bool :=
  let hit := s.badIn port a n
  if s.hbm.bad.any hit then ({ s with hbm := { s.hbm with bad := s.hbm.bad.filter fun e => !hit e } }, true) else (s, false)

/-! ### The requests of the ports (07 R170, R172) -/

/-- Whether a request of `n` bytes of a port is eligible: the controller runs, and the port's regulator allows it (07 R170, R177). -/
def State.eligible (s : State) (port n : Nat) : Bool := s.hbm.state == 0 && s.mayDraw port n

/-- Whether the write buffer has an eligible request, which goes ahead of every other port's. -/
def State.runWaits (s : State) : Bool := match s.ct.wbuf with | r :: _ => s.mayDraw 0 r.bytes.length | [] => false

/-- Where the accesses of `n` bytes from an address go, one for each 256 bytes that they touch (07 R156). -/
def accessPlaces (v : Variant) (a n : Nat) : List HbmPlace :=
  if n = 0 then [] else (List.range ((a + n - 1) / 256 - a / 256 + 1)).map fun i => hbmPlace v ((a / 256 + i) * 256)

/-- A bank of a stack enters in-order mode for an access; the entry is counted (07 R172). -/
def enterInOrder (bank stack serial : Nat) (s : State) : State :=
  { s with hbm := { s.hbm with
      ordered := tput s.hbm.ordered bank serial, inOrder := tmod s.hbm.inOrder stack 0 (satInc 32) } }

/-- The key of a bank. -/
def HbmPlace.bankKey (l : HbmPlace) : Nat := (32 * l.stack + l.pc) * 48 + l.bank

/-- The queued accesses that the scheduler has served by the time of a row leave the queues (07 R171; log entry 133). -/
def State.serves (served : List Nat) (s : State) : State :=
  { s with hbm := { s.hbm with queue := s.hbm.queue.filter fun q => !served.contains q.serial } }

/-- The accesses that still wait or run, less the oldest of a pseudo-channel whose 32 places are taken (07 R171; log entry 133). -/
def State.queueRest (s : State) (l : HbmPlace) : List QueuedAccess :=
  let mine := fun (q : QueuedAccess) => q.stack == l.stack && q.pc == l.pc
  let live := s.hbm.queue.filter fun q => !Config.accessDone q.serial s.cycle
  if 32 ≤ (live.filter mine).length then dropFirst mine live else live

/-- An access takes its place in the queue of its pseudo-channel. -/
def joinQueue (write : Bool) (l : HbmPlace) (s : State) : State :=
  { s with hbm := { s.hbm with
      accepted := s.hbm.accepted + 1
      queue := s.queueRest l ++
        [{ serial := s.hbm.accepted, stack := l.stack, pc := l.pc, bank := l.bank, row := l.row, write := write }] } }

/-- An access enters the queue of its pseudo-channel, which holds 32. A read that matches a queued write in pseudo-channel, bank and
row, or a write that matches a queued read, puts the bank into in-order mode, until the writes that arrived before it have completed
(07 R171, R172; log entry 133). -/
def queueAccess (write : Bool) (s : State) (l : HbmPlace) : State :=
  let mine := fun (q : QueuedAccess) => q.stack == l.stack && q.pc == l.pc
  let live := s.queueRest l
  let inMode := match tfind s.hbm.ordered l.bankKey with
    | some t => live.any fun q => mine q && q.bank == l.bank && q.write && decide (q.serial < t)
    | none => false
  let hit := live.any fun q => mine q && q.bank == l.bank && q.row == l.row && q.write != write
  let s := if inMode then s else { s with hbm := { s.hbm with ordered := tdel s.hbm.ordered l.bankKey } }
  joinQueue write l (if hit && !inMode then enterInOrder l.bankKey l.stack s.hbm.accepted s else s)

/-- A request of a port: it draws the bytes of its ranges, and its accesses enter the queues (07 R170 to R172). -/
def State.access (port : Nat) (write : Bool) (ranges : List (Nat × Nat)) (s : State) : State :=
  (ranges.flatMap fun r => accessPlaces s.fuses.variant r.1 r.2).foldl (queueAccess write) (s.draw port (sumOf (·.2) ranges))

/-- An access of CONTROL to the granule of an address, which waits for its port's bucket (07 R170, 15 R359). -/
def controlAccess (write : Bool) (a : Nat) (s : State) : State := (s.awaitPort 6 64).access 6 write [(a / 64 * 64, 64)]

/-! ### The corner-turn writer (07 R159 to R163) -/

/-- The address of 64 samples of a run in a ring at `base` of `w` positions over `paths` path ordinals (07 R159). -/
def runAddress (base paths w z path kappa block sub : Nat) : Nat :=
  base + ((kappa * paths + path) * w + block % w) * 256 * z + sub * 64 * z

/-- Bytes of a map row of `c` channels (07 R163). -/
def rowBytes (c : Nat) : Nat := (c + 511) / 512 * 64

/-- The address of the map row of a ring position, path ordinal and owned slice (07 R163). -/
def mapAddress (base paths own c pos path sigma : Nat) : Nat := base + ((pos * paths + path) * own + sigma) * rowBytes c

/-- `c` map bits set, from bit 7 of the first byte on. -/
def setBits (c : Nat) : Bytes :=
  List.replicate (c / 8) 0xFF ++ (if c % 8 = 0 then [] else [BitVec.ofNat 8 (256 - 2 ^ (8 - c % 8))])

/-- The directory entry of a ring position. -/
def State.ringEntry (s : State) (base pos : Nat) : RingEntry := tget (tget s.ct.dir (base / 2 ^ 15) []) pos {}

/-- Changes a directory entry. -/
def State.setEntry (s : State) (base pos : Nat) (e : RingEntry) : State :=
  { s with ct := { s.ct with dir := tmod s.ct.dir (base / 2 ^ 15) [] fun t => tput t pos e } }

/-- An accepted run: counted, and with the last run of a valid block the map bits of all its channels are set (07 R163). -/
def runAccepted (p : Programme) (r : QueuedRun) (w : Nat) (s : State) : State :=
  let sigma := r.kappa / p.c
  let key := blockKey r.block r.path sigma
  let n := tget (tget s.ct.accepted p.generation []) key 0 + 1
  let s := { s with ct := { s.ct with accepted := tmod s.ct.accepted p.generation [] fun t => tput t key n } }
  if n = 4 * p.c ∧ tget (tget s.ct.valid p.generation []) key false = true then
    match p.region 2 with
    | some m =>
      let a := mapAddress m.base p.pathCount p.owned.length p.c (r.block % w) r.path sigma
      (s.access 0 true [(a, rowBytes p.c)]).hbmWrite a (setBits p.c)
    | none => s
  else s

/-- The oldest queued run is written to its ring position, or discarded as an overrun (07 R161). -/
def writeRun (r : QueuedRun) (s : State) : State :=
  match s.progGen r.gen with
  | none => s
  | some p => match p.region 1 with
    | none => s
    | some reg =>
      let pos := r.block % reg.depth
      let e := s.ringEntry reg.base pos
      if e.state = 0 ∨ e.block = r.block then
        let closed : Bool := match s.ct.frame with | some o => decide (r.block * 256 / p.n < o) | none => false
        let st := if e.state = 2 ∨ closed = true then 2 else 1
        let s := s.setEntry reg.base pos { state := st, block := r.block }
        let a := runAddress reg.base p.pathCount reg.depth p.z r.path r.kappa r.block r.sub
        let s := (s.access 0 true [(a, r.bytes.length)]).hbmWrite a r.bytes
        runAccepted p r reg.depth s
      else raise 641 { s with ct := { s.ct with overruns := satInc 32 s.ct.overruns } }

/-- CT_RUN_WRITE: `dt` core cycles on, the controller, while it runs and its regulator allows, takes the oldest queued run (07 R161,
R170). -/
def execCtRunWrite (s : State) (dt : Nat := 0) (served : List Nat := []) : Host.Outcome State Fault Refusal :=
  let s := (s.advance dt).serves served
  .next (match s.ct.wbuf with
    | r :: rest =>
      if s.eligible 0 r.bytes.length then writeRun r { s with ct := { s.ct with wbuf := rest } } else s
    | [] => s)

/-! ### The transient capture (07 R166, R167) -/

/-- A trigger: ARMED becomes TRIGGERED; outside ARMED it is counted and ignored (07 R167). -/
def captureTrigger (s : State) : State :=
  if s.cap.state = 1 then
    let n := s.ch.begun.getD 0
    let post := match tfind s.ch.begunTerms n with | some b => b.post | none => 0
    captureFreezeIfDone { s with cap := { s.cap with state := 2, trigger := n, last := n + post, stamp := s.stamp } }
  else { s with cap := { s.cap with ignored := satInc 32 s.cap.ignored } }

/-- CAPTURE_TRIG_EDGE: a rising edge on CAPTURE_TRIG. -/
def execCaptureTrigEdge (s : State) : Host.Outcome State Fault Refusal :=
  .next (if s.ctlLive then captureTrigger s else s)

/-- The key of a block of one path and channel of the capture. -/
def captureKey (block path kappa : Nat) : Nat := (block * 2048 + path) * 65536 + kappa

/-- Writes a captured run into the ring; a new block at a ring position clears the position's map bits, where there is a map
(07 R166). -/
def storeCapture (p : Programme) (b : BegunOrbit) (ring : ProgRegion) (map : Option ProgRegion) (r : QueuedRun) (s : State) : State :=
  let pos := r.block % ring.depth
  let path := r.path - b.pathFirst
  let kappa := r.kappa - b.chFirst
  let row := rowBytes b.chCount
  let s := if tfind s.cap.ring pos = some r.block then s
    else
      let s := match map with
        | some map =>
          let n := b.pathCount * row
          (s.access 5 true [(map.base + pos * n, n)]).hbmWrite (map.base + pos * n) (List.replicate n 0)
        | none => s
      let old := match tfind s.cap.ring pos with | some o => some (o * 256 / p.n) | none => none
      { s with cap := { s.cap with
          ring := tput s.cap.ring pos r.block
          oldest := match s.cap.oldest, old with
            | some o, some k => if o = k then some (k + 1) else some o
            | o, _ => o } }
  let at' := runAddress ring.base b.pathCount ring.depth p.z path kappa r.block r.sub
  let s := (s.access 5 true [(at', r.bytes.length)]).hbmWrite at' r.bytes
  let layout : CapLayout :=
    { gen := p.generation, n := p.n, z := p.z, base := ring.base, depth := ring.depth, chFirst := b.chFirst
      chCount := b.chCount, pathFirst := b.pathFirst, pathCount := b.pathCount }
  let key := captureKey r.block path kappa
  let n := tget s.cap.accepted key 0 + 1
  let s := { s with cap := { s.cap with layout := some layout, accepted := if n = 4 then tdel s.cap.accepted key else tput s.cap.accepted key n } }
  match map with
  | some map =>
    if n = 4 ∧ tget (tget s.ct.valid p.generation []) (blockKey r.block r.path (r.kappa / p.c)) false = true then
      let a := map.base + (pos * b.pathCount + path) * row + kappa / 8
      (s.access 5 true [(a, 1)]).hbmWrite a [BitVec.ofNat 8 (setBit (s.hbmGet a).toNat (7 - kappa % 8))]
    else s
  | none => s

/-- CAPTURE_FREEZE: with RELEASE a FROZEN capture returns to ARMED, unless a dump still reads it; otherwise a trigger (07 Table 7.3;
13 R312). RELEASE of a capture that is not FROZEN changes nothing (DESIGN CHOICE, log entry 157). -/
def captureFreeze (c : Ctx) (s : State) : Verdict :=
  if 1 < fld c.p 0 1 ∨ fld c.p 1 3 ≠ 0 then .no .badParam
  else if fld c.p 0 1 = 1 ∧ (s.working fun w => match w with | .captureDump .. => true | _ => false) = true then .no .busy
  else .done fun s =>
    let s := if fld c.p 0 1 = 1 then
        (if s.cap.state = 3 then { s with cap := { s.cap with state := 1 } } else s)
      else captureTrigger s
    (s, be 1 s.cap.state ++ [0, 0, 0])

/-! ### Errors, freeze and thaw (07 R173 to R179) -/

/-- The location code of an HBM stack. -/
def locStack (h : Nat) : Bytes := locBlock .H h

/-- Whether one held request stands before another in the snapshot: by pseudo-channel, then by age, oldest first (07 R177). -/
def heldBefore (a b : HeldRequest) : Bool :=
  decide (a.stack * 32 + a.pc < b.stack * 32 + b.pc) || (a.stack * 32 + a.pc == b.stack * 32 + b.pc && decide (b.age < a.age))

/-- Puts a held request in its place, after those of its own rank. -/
def heldInsert (r : HeldRequest) : List HeldRequest → List HeldRequest
  | [] => [r]
  | x :: t => if heldBefore r x then r :: x :: t else x :: heldInsert r t

/-- The held requests in the order of the snapshot. -/
def heldSort (l : List HeldRequest) : List HeldRequest := l.foldl (fun t r => heldInsert r t) []

/-- The load that channel 62 writes ends with a status other than OK; what the chain has begun it still writes (log entry 142). -/
def loadStops (st : Status) (s : State) : State :=
  if s.prg.loading.isSome then endAwaited st [] { s with prg := { s.prg with loading := none } } else s

/-- The freeze: the snapshot of Table 7.5, EV_HBM_FROZEN, the stack's event and the fault record (07 R177). KIND is 1 SECDED,
2 on-die, 3 CA parity; ORBIT without an open frame is all ones (DESIGN CHOICE, log entry 133). -/
def hbmFreeze (kind a port syndrome : Nat) (held : List HeldRequest) (s : State) : State :=
  let l := hbmPlace s.fuses.variant a
  let syn := if kind = 3 then 0 else syndrome % 256
  let s := { s with hbm := { s.hbm with
    state := 1, kind := kind, stack := l.stack, pc := l.pc, bank := l.bank, port := port, row := l.row, column := l.column,
    syndrome := syn, address := a / 64 * 64, orbit := s.ct.frame.getD (2 ^ 64 - 1), stamp := s.stamp,
    held := (heldSort held).take 4096 } }
  loadStops .frozen
    (raiseFault (656 + 8 * l.stack + (if kind = 3 then 2 else 1)) { loc := locStack l.stack, detail := syn } (raise 640 s))

/-- HBM_UNCORRECTABLE_ERROR: of a request of a port at an address, with the requests that the queues hold (07 R175, R177). -/
def execHbmUncorrectableError (kind a port syndrome : Nat) (held : List HeldRequest) (s : State) :
    Host.Outcome State Fault Refusal :=
  .next (if s.hbm.state = 0 ∧ 1 ≤ kind ∧ kind ≤ 3 ∧ a < hbmCapacity s.fuses.variant then
      hbmFreeze kind a port syndrome held s else s)

/-- A single-bit error is corrected and counted; its first occurrence in its stack and bit enters the fault record
(07 R175; log entry 41). -/
def hbmCorrected (stack b : Nat) (s : State) : State :=
  let s := { s with hbm := { s.hbm with corrected := tmod s.hbm.corrected stack 0 (satInc 32) } }
  let e := 656 + 8 * stack
  let place := 32 * stack + b % 32
  if s.hbm.correctedSeen.contains place then raise e s
  else
    raiseFault e { loc := locCode (.block .H stack (some (b % 32))) }
      { s with hbm := { s.hbm with correctedSeen := s.hbm.correctedSeen ++ [place] } }

/-- HBM_CORRECTED_ERROR: in bit `b` of a word at an address. -/
def execHbmCorrectedError (a b : Nat) (s : State) : Host.Outcome State Fault Refusal :=
  .next (if s.hbm.state = 0 ∧ a < hbmCapacity s.fuses.variant then
      hbmCorrected (hbmPlace s.fuses.variant a).stack b s else s)

/-- The scrub writes a corrected granule back, its bank in in-order mode for the read and the write (07 R172, R176). -/
def heldRewrite (a : Nat) (s : State) : State :=
  let l := hbmPlace s.fuses.variant a
  let s := if thas s.hbm.ordered l.bankKey then s else enterInOrder l.bankKey l.stack s.hbm.accepted s
  joinQueue true l (s.draw 6 64)

/-- What the scrub finds in a granule: 1 an error corrected in bit `b` and written back, the granule held in in-order mode; 2 a
SECDED and 3 an on-die uncorrectable error, with syndrome `b` and what the queues hold (07 R172, R176, R177). -/
def scrubResult (found b : Nat) (held : List HeldRequest) (a : Nat) (s : State) : State :=
  let stack := (hbmPlace s.fuses.variant a).stack
  match found with
  | 1 => hbmCorrected stack b (heldRewrite a s)
  | 2 => hbmFreeze 1 a 6 b held s
  | 3 => hbmFreeze 2 a 6 b held s
  | _ => s

/-- The core cycles until a bank of a stack falls due again: half the JESD238 interval while its sensor reads above 85 degrees
(07 R173). -/
def State.refreshAfter (s : State) (stack : Nat) : Nat :=
  if 85 < tget s.hbm.temps stack 0 then Config.refreshInterval / 2 else Config.refreshInterval

/-- HBM_REFRESH: the refresh of a bank falls due and is issued; refresh continues throughout a freeze (07 R173, R177). -/
def execHbmRefresh (s : State) (stack : Nat := 0) (pc : Nat := 0) (bank : Nat := 0) : Host.Outcome State Fault Refusal :=
  let key := (32 * stack + pc) * 48 + bank
  .next (if s.hbm.state ≤ 1 ∧ stack < stacksOf s.fuses.variant ∧ pc < 32 ∧ bank < 48 then
      { s with hbm := { s.hbm with refreshes := tmod s.hbm.refreshes key 0 (· + 1)
                                   refreshDue := tput s.hbm.refreshDue key (s.cycle + s.refreshAfter stack) } }
    else s)

/-- HBM_RETIME: a stack's WDQS oscillator is read and its timing corrected, without pausing traffic (07 R174). -/
def execHbmRetime (stack : Nat) (s : State) : Host.Outcome State Fault Refusal :=
  .next (if s.hbm.state = 0 ∧ stack < stacksOf s.fuses.variant then
      { s with hbm := { s.hbm with retimes := tmod s.hbm.retimes stack 0 (· + 1) } } else s)

/-- EV_HBM_TEMP_WARN: a stack sensor reads `t` degrees (07 R179). -/
def execEvHbmTempWarn (stack : Nat) (t : Int) (s : State) : Host.Outcome State Fault Refusal :=
  .next (if stack < stacksOf s.fuses.variant ∧ s.pwr.hbmTrained then
      let s := { s with hbm := { s.hbm with temps := tput s.hbm.temps stack t } }
      if (s.eff 0x0702 : Int) ≤ t then raise (656 + 8 * stack + 3) s else s
    else s)

/-- The 48-byte snapshot header (07 Table 7.5). -/
def snapshotHeader (h : Hbm) : Bytes :=
  be 1 h.state ++ be 1 h.kind ++ be 1 h.stack ++ be 1 h.pc ++ be 1 h.bank ++ be 1 h.port ++ be 2 h.row ++ be 1 h.column ++
    be 1 h.syndrome ++ List.replicate 6 0 ++ be 8 h.address ++ be 8 h.orbit ++ be 8 h.stamp.packed ++ be 2 h.stamp.epoch ++
    be 2 h.held.length ++ [0, 0, 0, 0]

/-- A held request as a 16-byte entry (07, under Table 7.5). -/
def heldBytes (r : HeldRequest) : Bytes :=
  be 1 r.stack ++ be 1 r.pc ++ be 1 r.port ++ be 1 (b2n r.write) ++ be 8 r.address ++ be 2 r.age ++ be 1 r.bank ++
    be 1 (b2n r.inOrder)

/-- HBM_STATUS (07 R177, R167). -/
def hbmStatus (c : Ctx) (s : State) : Verdict :=
  if 553 < fld c.p 2 2 then .no .badParam
  else
    let none' := 2 ^ 64 - 1
    .answer (snapshotHeader s.hbm ++ be 1 s.cap.state ++ be 1 s.cap.reason ++ [0, 0] ++ be 8 s.cap.trigger ++
      be 8 s.cap.stamp.packed ++ be 2 s.cap.stamp.epoch ++ [0, 0] ++ be 8 (s.cap.oldest.getD none') ++
      be 8 (s.cap.newest.getD none') ++ ((s.hbm.held.drop (fld c.p 0 2)).take (fld c.p 2 2)).flatMap heldBytes)

end Sys2Proof.Machine
end

