-- ==== Sys2Proof/Machine/Reader.lean ====
section
/-! DEFINITION. The corner-turn reader: the coarse delay, the validity of a read block, the release of ring positions, and
the read schedules (07_corner_turn_memory.md R161, R163, R164; 11 R259). -/

namespace Sys2Proof.Machine

/-- Samples per operand word (08 Table 8.2). -/
def Programme.spw (p : Programme) : Nat := match p.precision with | 0 => 1 | 1 => 2 | _ => 4

/-- Whether stage B has delivered every block of orbit `n`, and the writer has placed them (07 R164). -/
def orbitDelivered (s : State) (p : Programme) (n : Nat) : Bool :=
  (p.paths.all fun r => p.owned.all fun k =>
    s.stagePast (s.fine r.path k).runB (s.fine r.path k).next n ((n + 1) * p.n)) &&
  s.ct.wbuf.all fun r => r.gen != p.generation || r.block * 256 / p.n != n

/-- Whether the reader may take frame `n` (07 R164). -/
def frameReadable (s : State) (p : Programme) (n : Nat) : Bool :=
  (match s.ct.frame with | some o => decide (n < o) | none => true) && orbitDelivered s p n

/-- The map bit of a block, path ordinal and ring channel, with the position holding that block (07 R163, R164). -/
def blockGood (s : State) (p : Programme) (ring map : ProgRegion) (ord kappa block : Nat) : Bool :=
  let e := s.ringEntry ring.base (block % ring.depth)
  let row := mapAddress map.base p.pathCount p.owned.length p.c (block % ring.depth) ord (kappa / p.c)
  e.state != 0 && e.block == block && bit (s.hbmGet (row + kappa % p.c / 8)).toNat (7 - kappa % p.c % 8)

/-- Whether COARSE of an orbit's entry of a path lies above REACH, in any owned slice: then every read block of the path and orbit is
invalid (07 R164). -/
def coarseBeyond (s : State) (p : Programme) (ring : ProgRegion) (n ord : Nat) : Bool :=
  (List.range p.owned.length).any fun k => match s.delayEntry p n k ord with
    | some e => decide (ring.reach < e.coarse)
    | none => false

/-- The map granule of a block, path ordinal and ring channel. -/
def mapGranule (p : Programme) (ring map : ProgRegion) (ord kappa block : Nat) : Nat :=
  (mapAddress map.base p.pathCount p.owned.length p.c (block % ring.depth) ord (kappa / p.c) + kappa % p.c / 8) / 64 * 64

/-- The first fine sample that read block `r` of a path ordinal takes from the ring; none where the block is invalid without a read
(07 R164). -/
def laneStart (s : State) (p : Programme) (ring : ProgRegion) (n ord kappa r : Nat) : Option Nat :=
  match s.delayEntry p n (kappa / p.c) ord with
  | none => none
  | some e =>
    let start : Int := (n : Int) * p.n - e.coarse + 256 * r
    if bit e.flags 0 ∨ coarseBeyond s p ring n ord = true ∨ start < 0 then none else some start.toNat

/-- The two stretches of a read block that begins at fine sample `m`, as addresses and bytes (07 R164). -/
def laneStretches (p : Programme) (ring : ProgRegion) (ord kappa m : Nat) : (Nat × Nat) × (Nat × Nat) :=
  let at' := fun blk off len =>
    (runAddress ring.base p.pathCount ring.depth p.z ord kappa blk 0 + off * p.z, len * p.z)
  (at' (m / 256) (m % 256) (256 - m % 256), at' ((m + 255) / 256) 0 (m % 256))

/-- What a read block that begins at fine sample `m` reads: its two stretches and the map granules of its two stored blocks. -/
def laneReads (p : Programme) (ring map : ProgRegion) (ord kappa m : Nat) : List (Nat × Nat) :=
  let x := laneStretches p ring ord kappa m
  (([x.1, x.2].filter fun (r : Nat × Nat) => r.2 != 0) ++
    [m / 256, (m + 255) / 256].map fun blk => (mapGranule p ring map ord kappa blk, 64)).eraseDups

/-- Read block `r` of a path ordinal in ring channel `kappa` of frame `n`: its validity and its stored bytes (07 R164). -/
def readPath (s : State) (p : Programme) (ring map : ProgRegion) (n ord kappa r : Nat) : Bool × Bytes :=
  let zero := List.replicate (256 * p.z) 0
  match laneStart s p ring n ord kappa r with
  | none => (false, zero)
  | some m =>
    let x := laneStretches p ring ord kappa m
    let hit := s.hbm.bad.any fun b => (laneReads p ring map ord kappa m).any fun r => s.badIn 1 r.1 r.2 b
    if blockGood s p ring map ord kappa (m / 256) && blockGood s p ring map ord kappa ((m + 255) / 256) && !hit then
      (true, s.hbmRead x.1.1 x.1.2 ++ s.hbmRead x.2.1 x.2.2)
    else (false, zero)

/-- A lane word from the stored bytes of its samples (08 Table 8.3). -/
def operandWord (p : Programme) (bs : Bytes) (line : Nat) : Nat := fld bs (line * p.spw * p.z) (p.spw * p.z)

/-- The Carousel block of a path group: its lines and the validity vector of its granules (08 R183, R185, R187). -/
def readBlock (s : State) (p : Programme) (id : BlockId) : CarouselBlock :=
  match p.region 1, p.region 2 with
  | some ring, some map =>
    let lanes := (List.range 16).map fun c => readPath s p ring map id.frame (16 * id.group + c) id.kappa id.r
    { id := id
      vector := ((List.range 16).map fun c => if (lanes.getD c (false, [])).1 then 2 ^ c else 0).foldl (· + ·) 0
      lines := (List.range (256 / p.spw)).map fun i => lanes.map fun l => operandWord p l.2 i }
  | _, _ => { id := id, vector := 0, lines := [] }

/-- The reads that the Carousel block of a path group takes, over its 16 lanes (07 R164). -/
def blockReads (s : State) (p : Programme) (id : BlockId) : List (Nat × Nat) :=
  match p.region 1, p.region 2 with
  | some ring, some map => (List.range 16).flatMap fun c =>
    let ord := 16 * id.group + c
    match laneStart s p ring id.frame ord id.kappa id.r with
    | some m => laneReads p ring map ord id.kappa m
    | none => []
  | _, _ => []

/-- The reads of a Carousel block go to the controller, and drop the bad marks of the granules that they take (07 R170, R178). -/
def readBlockTaken (s : State) (p : Programme) (id : BlockId) : State :=
  let reads := blockReads s p id
  reads.foldl (fun s x => (takeBad 1 x.1 x.2 s).1) (s.access 1 false reads)

/-- A frame whose reads begin: each path with COARSE above REACH is counted and raises EV_CT_COARSE_LIMIT (07 R164). -/
def coarseLimits (p : Programme) (n : Nat) (s : State) : State :=
  match p.region 1 with
  | none => s
  | some ring =>
    let beyond := (List.range p.pathCount).filter (coarseBeyond s p ring n)
    beyond.foldl (fun s _ => raise 643 { s with ct := { s.ct with coarseLimits := satInc 32 s.ct.coarseLimits } }) s

/-! ### Release of ring positions (07 R161; 09 R224) -/

/-- An address under the circular rule (08 R196). -/
def circular (base len : Nat) (a : Int) : Nat := if len = 0 then base else base + ((a - base) % (len : Int)).toNat

/-- The operand line of a stream's position `i`. -/
def LineStream.line (l : LineStream) (i : Nat) : Nat := circular l.base l.len (l.first + i : Nat) % 3072

/-- What a stream reads at position `i`, as keys of the engine's parity marks: its line and the line's validity vector. -/
def LineStream.keys (l : LineStream) (spw i : Nat) : List Nat := [l.line i, 4096 + l.line i * spw / 16]

/-- What a pass reads at position `i`: of both streams, or of the column stream for a beam pass (10 R243). -/
def ArrayPass.keysAt (p : ArrayPass) (i : Nat) : List Nat :=
  if p.beam then p.col.keys p.spw i else p.row.keys p.spw i ++ p.col.keys p.spw i

/-- The lines and vectors that a pass reads. -/
def ArrayPass.keys (p : ArrayPass) : List Nat := (List.range p.lines).flatMap p.keysAt

/-- The first operand line of a parity mark's key. -/
def keyLine (spw key : Nat) : Nat := if key < 4096 then key else (key - 4096) * 16 / spw

/-- The stream of a pass that reads a key. -/
def ArrayPass.streamOf (p : ArrayPass) (key : Nat) : LineStream :=
  if !p.beam && (List.range p.lines).any (fun i => (p.row.keys p.spw i).contains key) then p.row else p.col

/-- Where an operand line stands in a ring, counted from its base and wrapping with the store (08 R188, R196). -/
def ringOffset (base a : Nat) : Nat := (a + 3072 - base % 3072) % 3072

/-- The Carousel block that filled an operand line of a stream, with its own first line. -/
def blockOf (g : Engine) (spw : Nat) (l : LineStream) (a : Nat) : Option (Nat × CarouselBlock) :=
  g.blocks.find? fun b =>
    if l.len = 0 then b.1 == a
    else decide (ringOffset l.base b.1 < l.len) && (List.range (256 / spw)).any fun i =>
      (l.base + (ringOffset l.base b.1 + i) % l.len) % 3072 == a

/-- The read blocks whose lines or vectors fail under a pass: each once, with its stream and first line (09 R224). -/
def failedBlocks (g : Engine) (p : ArrayPass) : List (LineStream × Nat × CarouselBlock) :=
  ((g.bad.filter fun b => p.keys.contains b.1).filterMap fun b =>
    let l := p.streamOf b.1
    (blockOf g p.spw l (keyLine p.spw b.1)).map fun x => (l, x)).eraseDups

/-- The read blocks whose replay is pending in any engine (09 R224). -/
def pendingReplays (s : State) : List BlockId :=
  s.engines.flatMap fun e => match e.2.stream with
    | some p => if e.2.replaying then (failedBlocks e.2 p).map (·.2.2.id) else []
    | none => []

/-- The ring blocks that a read block covers, over the paths of its group (07 R164). -/
def ringBlocks (s : State) (p : Programme) (id : BlockId) : List Nat :=
  ((List.range 16).flatMap fun c => match s.delayEntry p id.frame (id.kappa / p.c) (16 * id.group + c) with
    | some e =>
      let m := ((id.frame : Int) * p.n - e.coarse + 256 * id.r).toNat
      [m / 256, (m + 255) / 256]
    | none => []).eraseDups

/-- Releases a ring position and clears its map bits. -/
def releasePosition (p : Programme) (ring : ProgRegion) (pos : Nat) (s : State) : State :=
  let s := s.setEntry ring.base pos {}
  match p.region 2 with
  | some map =>
    let n := p.pathCount * p.owned.length * rowBytes p.c
    (s.access 0 true [(map.base + pos * n, n)]).hbmWrite (map.base + pos * n) (List.replicate n 0)
  | none => s

/-- Once every read of frame `n` has completed, the positions of its blocks outside the REACH tail, and of the tail of the
frame before, become FREE, but for those whose replay is pending (07 R161, 09 R224). -/
def releaseFrame (p : Programme) (n : Nat) (s : State) : State :=
  match p.region 1 with
  | none => s
  | some ring =>
    let last := (n + 1) * (p.n / 256) - ring.reach / 256
    let kept := (pendingReplays s).flatMap (ringBlocks s p)
    let done := (tget s.ct.dir (ring.base / 2 ^ 15) []).filter fun e =>
      e.2.state == 2 && decide (e.2.block < last) && !kept.contains e.2.block
    done.foldl (fun s e => releasePosition p ring e.1 s) s

/-- The delay segments all of whose orbits have been read, replays included, are freed (11 R277). -/
def freeSegments (n : Nat) (s : State) : State :=
  let first := (pendingReplays s).foldl (fun m b => min m b.frame) (n + 1)
  { s with prg := { s.prg with segments := s.prg.segments.filter fun g => decide (first < g.firstOrbit + g.orbitCount) } }

/-- Releases the frame that the reader holds, if its reads and replays are complete. -/
def releaseRead (s : State) : State :=
  match s.prg.frame with
  | none => s
  | some n =>
    if s.car.runs.any (fun r => decide (r.frame ≤ n)) then s
    else match s.progAt n with
      | some p => freeSegments n (releaseFrame p n s)
      | none => s

/-! ### The schedules -/

/-- The position after the read just made. -/
def ReadRun.next (p : Programme) (r : ReadRun) : Option ReadRun :=
  match r.entries with
  | [] => none
  | e :: rest =>
    if r.g + 1 < e.groupCount then some { r with g := r.g + 1 }
    else if r.r + 1 < p.n / 256 then some { r with g := 0, r := r.r + 1 }
    else if r.ch + 1 < e.chCount then some { r with g := 0, r := 0, ch := r.ch + 1 }
    else if rest.isEmpty then none
    else some { r with g := 0, r := 0, ch := 0, entries := rest }

/-- The block that a schedule reads next. -/
def ReadRun.block (r : ReadRun) : Option BlockId :=
  match r.entries with
  | e :: _ => some { gen := r.gen, frame := r.frame, group := e.groupFirst + r.g, kappa := e.chFirst + r.ch, r := r.r }
  | [] => none

/-- Drops the entries of a schedule that name no channel or no group (00 R3). -/
def ReadRun.trim (r : ReadRun) : ReadRun :=
  { r with entries := r.entries.filter fun e => e.chCount != 0 && e.groupCount != 0 }

/-- The reader reads the next block of its first schedule and hands it to the Carousel's root. -/
def readNext (s : State) : State :=
  match s.car.runs with
  | [] => s
  | r :: rest =>
    match s.progGen r.gen, r.block with
    | some p, some id =>
      let b := readBlock s p id
      let runs := match r.next p with | some r => r :: rest | none => rest
      let s := readBlockTaken s p id
      releaseRead { s with car := { s.car with runs := runs, root := some b, heldSince := none, heldBy := [] } }
    | _, _ => releaseRead { s with car := { s.car with runs := rest } }

/-- The bytes that the reader's first schedule asks for next (07 R164). -/
def State.nextRead (s : State) : Nat :=
  match s.car.runs with
  | r :: _ => (match s.progGen r.gen, r.block with
    | some p, some id => sumOf (·.2) (blockReads s p id)
    | _, _ => 0)
  | [] => 0

/-- Whether the reader has an eligible request, which goes ahead of the ports below it. -/
def State.readWaits (s : State) : Bool :=
  s.coreLive && s.car.root.isNone && !s.car.runs.isEmpty && s.mayDraw 1 s.nextRead

/-- Whether an eligible request of a port is granted ahead of CT_WRITE and CT_READ, the ports of highest priority (07 R170; log
entry 132). -/
def State.granted (s : State) (port n : Nat) : Bool :=
  s.eligible port n && (port == 0 || !s.runWaits) && (decide (port ≤ 1) || !s.readWaits)

/-- CT_READ_BLOCK: `dt` core cycles on, while the root is free, the controller runs and the regulator allows, the reader reads one
read block (07 R164, R170). -/
def execCtReadBlock (s : State) (dt : Nat := 0) (served : List Nat := []) : Host.Outcome State Fault Refusal :=
  let s := (s.advance dt).serves served
  .next (if s.coreLive && s.granted 1 s.nextRead && s.car.root.isNone then readNext s else s)

end Sys2Proof.Machine
end

