-- ==== Sys2Proof/Machine/Engine.lean ====
section
/-! DEFINITION. The parts of a correlation engine and the operations that its instructions share: causes and counters, stop
requests, registers and the circular rule, branches and REPEAT, slots, poison and tokens, the acts that fall due, and the
arithmetic of passes (08_correlation_engines.md, 09_accumulation.md, 10_beamforming.md). -/

namespace Sys2Proof.Machine

/-- Engine `e`. -/
def State.eng (s : State) (e : Nat) : Engine := tget s.engines e {}

/-- Changes engine `e`. -/
def State.onEng (s : State) (e : Nat) (f : Engine → Engine) : State := { s with engines := tput s.engines e (f (s.eng e)) }

/-! ### Causes and counters (08 R205, R206) -/

/-- Sets a bit of an engine's cause mask; where it was clear, raises EV_ENG_SUMMARY, with the fault that a rule enters. -/
def engCauseFault (e b : Nat) (f : Option FaultSpec) (s : State) : State :=
  if bit (s.eng e).cause b then
    match f with
    | some f =>
      let (s, full) := recordFault e f s
      if full then raise 964 s else s
    | none => s
  else
    let s := s.onEng e fun g => { g with cause := setBit g.cause b }
    occur 6 e (s.eng e).cause f s

/-- Sets a bit of an engine's cause mask (08 Table 8.11). -/
def engCause (e b : Nat) (s : State) : State := engCauseFault e b none s

/-- Adds to a counter of R206, in its order. -/
def engCount (e i k : Nat) (s : State) : State :=
  s.onEng e fun g => { g with counters := tmod g.counters i 0 fun n => satAdd 32 n k }

/-- The location code of a bit of an engine's block (00 R8). -/
def locBit (tag : BlockTag) (n b : Nat) : Bytes := locCode (.block tag n (some (b % 32)))

/-! ### Stop requests (08 R201) -/

/-- Whether a stop request of any source holds for engine `e`: a halt, the debug port, a frozen HBM, or shedding stage 3
and beyond. -/
def State.stopAsked (s : State) (e : Nat) : Bool :=
  (s.eng e).halted || (s.eng e).debug || s.hbm.state == 1 || decide (3 ≤ s.pwr.stage)

/-- Engines whose stop requests have all ended continue; a stall goes on from there (08 R201). -/
def resumeEngines (s : State) : State :=
  { s with engines := s.engines.map fun e =>
      if s.stopAsked e.1 || !e.2.stopped then e
      else (e.1, { e.2 with stopped := false, stallSince := s.cycle }) }

/-- Whether the engine exists and is powered. -/
def State.engLive (s : State) (e : Nat) : Bool := decide (e < enginesOf s.fuses.variant) && s.coreLive

/-- Whether the sequencer is at an interruptible point: a boundary outside delay slots and REPEAT bodies, or in a body one after an
instruction that issued to the array or stalled; an instruction that stalls is at such a boundary (08 R201; log entry 136). -/
def Engine.interruptible (g : Engine) : Bool := g.delay.isNone && (g.loops.isEmpty || g.syncPoint || g.stall.isSome)

/-- Whether a stop request holds the sequencer where it stands, at an interruptible point (08 R201). -/
def State.seqStops (s : State) (e : Nat) : Bool := (s.eng e).stopped || (s.stopAsked e && (s.eng e).interruptible)

/-- Whether the sequencer of engine `e` executes an instruction now. -/
def State.seqReady (s : State) (e : Nat) : Bool :=
  s.engLive e && !s.seqStops e && !(s.eng e).fault && !(s.eng e).waito && (s.eng e).stall.isNone

/-! ### Registers and the circular rule (08 R195, R196) -/

/-- General register `i`, 24 bits wide (08 R195). -/
def Engine.reg (g : Engine) (i : Nat) : Nat := tget g.g i 0 % 2 ^ 24
/-- Writes general register `i`, modulo 2^24. -/
def Engine.setReg (g : Engine) (i v : Nat) : Engine := { g with g := tput g.g i (v % 2 ^ 24) }
/-- The signed reading of a general register. -/
def Engine.sreg (g : Engine) (i : Nat) : Int := toSigned 24 (g.reg i)
/-- The circular base of `ak`. -/
def Engine.base (g : Engine) (k : Nat) : Nat := tget g.cb k 0
/-- The circular length of `ak`. -/
def Engine.len (g : Engine) (k : Nat) : Nat := tget g.cl k 0

/-- eff(k). -/
def Engine.effAddr (g : Engine) (k : Nat) : Nat := circular (g.base k) (g.len k) (tget g.a k 0 : Nat)

/-- advance(k, n). -/
def Engine.advanceAddr (g : Engine) (k : Nat) (n : Int) : Engine :=
  { g with a := tput g.a k (circular (g.base k) (g.len k) ((tget g.a k 0 : Nat) + n) % 2 ^ 16) }

/-- The stream of lines from eff(k). -/
def Engine.streamOf (g : Engine) (k : Nat) : LineStream :=
  { first := g.effAddr k, base := g.base k, len := g.len k, ring := k }

/-! ### Branches and REPEAT (08 R200) -/

/-- The end of an instruction whose last address is `last`, within the body of a REPEAT level: the next iteration begins,
or the loop is left. Also says whether the level branched back. -/
def Engine.loopEnd (g : Engine) (level last : Nat) : Engine × Bool :=
  match tfind g.loops level with
  | some (first, final) =>
    if last = final then
      let left := tget g.lc level 0 - 1
      let g := { g with lc := tput g.lc level left }
      if left = 0 then ({ g with loops := tdel g.loops level }, false) else ({ g with pc := first }, true)
    else (g, false)
  | none => (g, false)

/-- The sequencer goes on after an instruction whose last address is `last`: to the branch target after the second delay
slot, back to the first instruction of a body, or to the next address. -/
def Engine.after (g : Engine) (last : Nat) : Engine :=
  let g := { g with pc := (last + 1) % 4096 }
  match g.delay with
  | some (n, target) => if n = 1 then { g with delay := none, pc := target } else { g with delay := some (n - 1, target) }
  | none =>
    let (g, back) := g.loopEnd 1 last
    if back then g else (g.loopEnd 0 last).1

/-- A branch: the two instructions that follow execute first, taken or not. -/
def Engine.branch (g : Engine) (taken : Bool) (target : Nat) : Engine :=
  { g with delay := some (2, if taken then target % 4096 else (g.pc + 3) % 4096), pc := (g.pc + 1) % 4096 }

/-- REPEAT: the body runs `count` times; a COUNT or LEN of 0 runs nothing. -/
def Engine.repeat' (g : Engine) (level len count : Nat) : Engine :=
  if count = 0 ∨ len = 0 then
    ({ g with lc := tput g.lc level 0 } : Engine).after (g.pc + len)
  else
    { g with lc := tput g.lc level count, loops := tput g.loops level (g.pc + 1, g.pc + len), pc := (g.pc + 1) % 4096 }

/-- An instruction that neither branches nor waits: its effect on the engine, and the next address. -/
def seqStep (e : Nat) (f : Engine → Engine) (s : State) : State :=
  if s.seqReady e then s.onEng e fun g => ({ f g with syncPoint := false } : Engine).after g.pc else s

/-- A control instruction: its effect gives the next address itself. -/
def seqControl (e : Nat) (f : Engine → Engine) (s : State) : State :=
  if s.seqReady e then s.onEng e fun g => { f g with syncPoint := false } else s

/-! ### Slots, poison and tokens (08 R190 to R194; 09 R211, R227) -/

/-- Slot `i` of an engine. -/
def Engine.slot (g : Engine) (i : Nat) : EngSlot := tget g.slots i {}

/-- Changes slot `i`, of the 42 that the scratchpad holds. -/
def State.onEngSlot (s : State) (e i : Nat) (f : EngSlot → EngSlot) : State :=
  if i < 42 then s.onEng e fun g => { g with slots := tput g.slots i (f (g.slot i)) } else s

/-- The record of a poisoned slot. -/
def poisonRec : Rec32 := { re := nan32, im := nan32, weight := 0 }

/-- Poisons a slot, with the location code of the failure (09 R227). -/
def poisonSlot (e i : Nat) (loc : Bytes) (s : State) : State :=
  if ((s.eng e).slot i).poisoned then s
  else
    let s := s.onEngSlot e i fun x =>
      { x with poisoned := true, overflow := false, records := (List.range 256).map fun m => (m, poisonRec) }
    engCauseFault e 2 (some { loc := loc }) (engCount e 13 1 s)

/-- A record that enters a slot: its spread form, whether it is infinite, and whether it is a NaN (09 R211). -/
def spread (r : Rec32) : Rec32 × Bool × Bool :=
  if isNan32 r.re || isNan32 r.im then (r, false, true)
  else if isInf32 r.re || isInf32 r.im then ({ r with re := spreadTo r.re, im := spreadTo r.im }, true, false)
  else (r, false, false)

/-- Writes records that entered a slot through spread, and sets its flags and the causes (09 R211). -/
def enterRecords (e i : Nat) (loc : Bytes) (rs : List Rec32) (s : State) : State :=
  let out := rs.map spread
  let overflow := out.any fun x => x.2.1
  let first := overflow && !((s.eng e).slot i).overflow
  let s := s.onEngSlot e i fun x =>
    { x with records := (List.range out.length).zip (out.map (·.1)), overflow := x.overflow || overflow }
  let s := if first then engCause e 3 s else s
  if out.any fun x => x.2.2 then poisonSlot e i loc s else s

/-- The entry of the token board for a tile. -/
def State.token (s : State) (tile : Nat) : Token := tget s.car.tokens tile {}

/-- Sets a tile's token (08 Table 8.6). -/
def State.setToken (s : State) (tile : Nat) (t : Token) : State :=
  if tile ≤ 8255 then { s with car := { s.car with tokens := tput s.car.tokens tile t } } else s

/-! ### Acts that fall due (11 R262, R263, R270, R271; 08 R202) -/

/-- The CODE entry of an engine. -/
def Programme.codeOf (p : Programme) (e : Nat) : Option ProgCode := p.codes.find? fun c => c.engine == e

/-- Resets the registers and stops the feed; slots and what they hold stay, and no TACQ waits any more (08 R191, 11 R271). -/
def resetSequencer (g : Engine) : Engine :=
  { g with
    fault := false, stopped := false, halted := false
    g := [], a := [], cb := [], cl := [], lc := [], pc := 0, delay := none, loops := [], syncPoint := false, stall := none
    act := none, subscr := [], beamSet := none, refetched := []
    slots := g.slots.map fun x => (x.1, { x.2 with tokenWait := false }) }

/-- Stops the feed, loads the stores and resets the registers of an engine (11 R271). -/
def loadEngine (p : Programme) (c : ProgCode) (g : Engine) : Engine :=
  { resetSequencer g with
    loaded := true, gen := p.generation, waito := true
    code := c.code, consts := (List.range c.consts.length).zip c.consts, tables := c.tables }

/-- An engine without an entry in the programme is IDLE (11 R258). -/
def idleEngine (g : Engine) : Engine :=
  { resetSequencer g with loaded := false, gen := 0, waito := false, code := [], consts := [], tables := [] }

/-- Whether no pass is queued, in the array or in write-back. -/
def Engine.arrayIdle (g : Engine) : Bool := g.queue.isEmpty && g.stream.isNone && g.writeBack.isEmpty

/-- Whether the array has done what it does before a switch: every pass is written back (09 R216), or, of a programme halted AT_ONCE, the
pass that streamed, unless it waits for lines that no longer come, while the passes still queued stay there (08 R201). -/
def Engine.settled (g : Engine) : Bool :=
  if g.halted then (g.stream.isNone || g.starved) && g.writeBack.isEmpty else g.arrayIdle

/-- The queued passes of a programme halted AT_ONCE, which never resume, are gone when the engine switches (log entry 137). -/
def dropPasses (g : Engine) : Engine :=
  { g with
    queue := [], stream := none, starved := false, replaying := false, writeBack := [], frees := [], streamed := g.issued
    slots := g.slots.map fun (x : Nat × EngSlot) => (x.1, if x.2.busyBy = 1 then { x.2 with busyBy := 0, replays := 0 } else x.2) }

/-- Whether an engine holds the code that a programme gives it (11 R271). -/
def State.keepsCode (s : State) (e : Nat) (p : Programme) : Bool :=
  (s.eng e).loaded &&
  match s.progGen (s.eng e).gen with
  | some old => (old.codeOf e).isSome && old.codeOf e == p.codeOf e
  | none => false

/-- The programme switch of an engine that waits: identical code keeps everything, other code is loaded, and an engine
without an entry is IDLE (11 R258, R270, R271). -/
def switchEngine (s : State) (e : Nat) (p : Programme) (g : Engine) : Engine :=
  if s.keepsCode e p && !g.halted then { g with gen := p.generation }
  else
    let g := if g.halted then dropPasses g else g
    match p.codeOf e with
    | none => idleEngine g
    | some c => loadEngine p c g

/-- The slot in which a programme of a generation runs, or runs out (11 Table 11.1). -/
def State.runningSlot (s : State) (gen : Nat) : Option Nat :=
  (List.range 3).find? fun i => (s.slot i).generation == gen && ((s.slot i).state == .inEffect || (s.slot i).state == .retiring)

/-- The slip of a late act, for the slot of its programme (11 R263). -/
def countSlip (gen slip : Nat) (s : State) : State :=
  match s.runningSlot gen with
  | some i => s.onSlot i fun x => { x with slip := max x.slip slip, lateActs := satInc 32 x.lateActs }
  | none => s

/-- An engine that waits in WAITO, or is IDLE, takes what is due: a switch, then the next act (08 R202, 11 R262). A switch to other
code waits until every pass that the engine issued is written back (09 R216), and an act whose code the engine no longer holds does
not run there (log entry 137). -/
def takeDue (fuel e : Nat) (s : State) : State :=
  match fuel with
  | 0 => s
  | fuel + 1 =>
    let g := s.eng e
    if g.loaded && !g.waito then s
    else match g.due with
      | [] => s
      | d :: rest =>
        let taken := s.onEng e fun g => { g with due := rest }
        match s.progGen d.gen, d.act with
        | some p, none =>
          if (s.keepsCode e p && !g.halted) || g.settled then takeDue fuel e (taken.onEng e fun g => switchEngine s e p g) else s
        | some p, some i =>
          match p.acts[i]? with
          | some a =>
            let s := match d.late with
              | some c => countSlip d.gen (s.cycle - c) (engCause e 9 (engCount e 15 1 taken))
              | none => taken
            if s.keepsCode e p then
              s.onEng e fun g =>
                { g with waito := false, act := some d, pc := a.entry % 4096, refetched := [], syncPoint := false
                         subscr := g.tables.getD a.subscr [], beamSet := if a.beamSet = 0xFF then none else some a.beamSet }
            else takeDue fuel e s
          | none => takeDue fuel e taken
        | none, _ => takeDue fuel e taken

/-- An engine that waits takes what a switch put off until its passes were written back. -/
def takePutOff (e : Nat) (s : State) : State :=
  if (s.eng e).settled && (s.eng e).waito then takeDue ((s.eng e).due.length + 1) e s else s

/-- WAITO: the act ends, and the next due act starts at once (08 R202). -/
def waito (e : Nat) (s : State) : State :=
  if s.seqReady e then
    let s := s.onEng e fun g => { g with waito := true, act := none, syncPoint := false, pc := (g.pc + 1) % 4096 }
    takeDue ((s.eng e).due.length + 1) e s
  else s

/-! ### The arithmetic of a pass (08 R181 to R185; 09 R212, R215; 10 R233) -/

/-- The programme whose precision and beam sets an engine uses: that of its act. -/
def State.engProg (s : State) (e : Nat) : Programme :=
  (s.progGen (match (s.eng e).act with | some d => d.gen | none => (s.eng e).gen)).getD {}

/-- Samples of one lane word, earliest first (08 Table 8.3). -/
def laneSamples (spw w : Nat) : List (Int × Int) :=
  if spw = 1 then [(toSigned 12 (bits w 23 12), toSigned 12 (bits w 11 0))]
  else if spw = 2 then
    [(toSigned 8 (bits w 31 24), toSigned 8 (bits w 23 16)), (toSigned 8 (bits w 15 8), toSigned 8 (bits w 7 0))]
  else [24, 16, 8, 0].map fun k => (toSigned 4 (bits w (k + 7) (k + 4)), toSigned 4 (bits w (k + 3) k))

/-- The operand line `a` of an engine, 16 lane words. -/
def Engine.lineAt (g : Engine) (a : Nat) : List Nat := tget g.lines a (List.replicate 16 0)

/-- A validity granule of a stream: its vector and, per lane, its 16 samples. -/
def Engine.granule (g : Engine) (spw : Nat) (l : LineStream) (i : Nat) : Nat × List (List (Int × Int)) :=
  let per := 16 / spw
  let lines := (List.range per).map fun j => g.lineAt (l.line (i * per + j))
  (tget g.valid (l.line (i * per) * spw / 16) 0,
   (List.range 16).map fun c => lines.flatMap fun w => laneSamples spw (w.getD c 0))

/-- The products of one granule in a cell: re, and im unless real-only (08 R181, R182). -/
def granuleSum (real : Bool) (x y : List (Int × Int)) : Int × Int :=
  (x.zip y).foldl (fun s p =>
    (s.1 + p.1.1 * p.2.1 + p.1.2 * p.2.2, if real then s.2 else s.2 + p.1.2 * p.2.1 - p.1.1 * p.2.2)) (0, 0)

/-- The beat sums of the 256 cells of a correlation pass (09 R212). -/
def correlate (g : Engine) (p : ArrayPass) : List (Int × Int × Nat) :=
  let n := p.lines * p.spw / 16
  let rows := (List.range n).map fun i => g.granule p.spw p.row i
  let cols := (List.range n).map fun i => g.granule p.spw p.col i
  (List.range 256).map fun m =>
    (rows.zip cols).foldl (fun s rc =>
      if bit rc.1.1 (m / 16) && bit rc.2.1 (m % 16) then
        let q := granuleSum p.real (rc.1.2.getD (m / 16) []) (rc.2.2.getD (m % 16) [])
        (s.1 + q.1, s.2.1 + q.2, s.2.2 + 16)
      else s) (0, 0, 0)

/-- The row sums of a beam pass with the weights that it holds, for records 16 r + t (10 R232, R233). -/
def beamSums (g : Engine) (p : ArrayPass) : List (Int × Int × Nat) :=
  let (v, lanes) := g.granule p.spw p.col 0
  (List.range 256).map fun m =>
    (List.range 16).foldl (fun s c =>
      if bit v c then
        let w := p.weights.getD (m / 16 * 16 + c) (0, 0)
        let x := (lanes.getD c []).getD (m % 16) (0, 0)
        (s.1 + w.1 * x.1 - w.2 * x.2, s.2.1 + w.1 * x.2 + w.2 * x.1, s.2.2 + 1)
      else s) (0, 0, 0)

/-- A record after a pass value has been added (09 R215). -/
def addSum (scale : Int) (r : Rec32) (q : Int × Int × Nat) : Rec32 :=
  { re := add32 r.re (conv32 q.1 scale), im := add32 r.im (conv32 q.2.1 scale), weight := (r.weight + q.2.2) % 2 ^ 32 }

/-- The write-back of a pass: each record takes its sum, in ascending cell order; a poisoned slot is left as it is
(09 R215). -/
def writeBackPass (e : Nat) (p : ArrayPass) (s : State) : State :=
  let x := (s.eng e).slot p.slot
  let s := if x.poisoned then s
    else enterRecords e p.slot (locBlock .S e)
      ((List.range 256).map fun m => addSum p.scale (tget x.records m {}) (p.sums.getD m (0, 0, 0))) s
  s.onEngSlot e p.slot fun x => { x with busyBy := 0, replays := 0 }

/-- HBM_THAW: the held queues resume: their entries leave the snapshot, and the rows whose requests they are go on, in the order in
which they come (log entry 133). For a data error the failing granule goes to its consumer marked bad, and the engines continue
(07 R178, 08 R201). -/
def hbmThaw (_ : Ctx) (s : State) : Verdict :=
  if s.hbm.state ≠ 1 then .no .badState
  else .did fun s =>
    captureResumes <| resumeEngines { s with hbm := { s.hbm with
        state := 0, held := []
        bad := if s.hbm.kind = 3 then s.hbm.bad else (s.hbm.address, s.hbm.port) :: s.hbm.bad } }

end Sys2Proof.Machine
end

