-- ==== Sys2Proof/Machine/Image.lean ====
section
/-! DEFINITION. The programme image: its header, directory and sections, read into a `Programme` (11_programmes.md R250 to
R261; 05 R116, R122, R123; 07 R157). -/

namespace Sys2Proof.Machine

/-- A section of the directory (11 R250). -/
structure Section where
  kind : Nat
  off : Nat
  len : Nat
  crc : Nat
  deriving DecidableEq, Repr

/-- The directory entries of an image. -/
def imageSections (img : Bytes) : List Section :=
  (List.range (fld img 6 2)).map fun i =>
    { kind := fld img (64 + 16 * i) 2, off := fld img (68 + 16 * i) 4, len := fld img (72 + 16 * i) 4
      crc := fld img (76 + 16 * i) 4 }

/-- The section of a type, if present: a LENGTH of 0 means absent. -/
def findSection (secs : List Section) (kind : Nat) : Option Section := secs.find? fun x => x.kind == kind && x.len != 0

/-- The bytes of a section; none where it is absent. -/
def sectionBytes (img : Bytes) (secs : List Section) (kind : Nat) : Bytes :=
  match findSection secs kind with
  | some x => slice img x.off x.len
  | none => []

/-- The next multiple of 4. -/
def pad4 (n : Nat) : Nat := (n + 3) / 4 * 4

/-- `n` fields of `w` bytes from an offset on. -/
def fldList (b : Bytes) (off w n : Nat) : List Nat := (List.range n).map fun i => fld b (off + w * i) w

/-! ### MESH (11 R252) -/

/-- Segments as (path, slice). -/
def segList (b : Bytes) (off n : Nat) : List (Nat × Nat) :=
  (List.range n).map fun i => (fld b (off + 4 * i) 2, fld b (off + 4 * i + 2) 2)

/-- `n` link records from an offset on, and the offset past them. -/
def linkList (b : Bytes) (n off : Nat) : List ProgLink × Nat :=
  match n with
  | 0 => ([], off)
  | n + 1 =>
    let tx := fld b (off + 2) 2
    let rx := fld b (off + 4) 2
    let l : ProgLink := { hp := fld b off 1, peer := fld b (off + 1) 1, tx := segList b (off + 8) tx
                          rx := segList b (off + 8 + 4 * tx) rx }
    let (rest, stop) := linkList b n (off + 8 + 4 * (tx + rx))
    (l :: rest, stop)

/-- Where the local path list starts. -/
def meshLocals (b : Bytes) : Nat := 16 + pad4 (fld b 4 2)
/-- Where the link records start. -/
def meshLinks (b : Bytes) : Nat := meshLocals b + pad4 (2 * fld b 6 2)

/-! ### CHANNELISER (11 R253) -/

/-- A path record of Table 5.5. -/
def pathRecord (b : Bytes) (o : Nat) : ProgPath :=
  { path := fld b o 2, flags := fld b (o + 2) 1, slFirShift := fld b (o + 3) 1, ncoInc := fld b (o + 4) 4
    ncoPhase0 := fld b (o + 8) 4, slReqShift := fld b (o + 12) 1, fbFirShift := fld b (o + 13) 1
    fbReqShift := fld b (o + 14) 1 }

/-- Signed coefficients. -/
def coeffs (b : Bytes) (off n : Nat) : List Int := (fldList b off 4 n).map (toSigned 32)

/-! ### DELAY (05 R116) -/

/-- A delay-table segment. -/
def delaySegment (generation validFrom : Nat) (b : Bytes) : DelaySegment :=
  let n := fld b 8 4
  let k := fld b 12 2
  let q := fld b 14 2
  { generation := generation, firstOrbit := fld b 0 8, orbitCount := n, sliceCount := k, pathCount := q
    validFrom := validFrom, entries := (List.range (n * k * q)).map fun i => delayRecord b (16 + 32 * i) }

/-! ### MEMORY, CORRELATION, BEAMS and STREAMS (07 R157; 11 R254 to R257) -/

/-- A region record of Table 7.2. -/
def regionRecord (b : Bytes) (o : Nat) : ProgRegion :=
  { kind := fld b o 1, depth := fld b (o + 2) 2, reach := fld b (o + 4) 4, base := fld b (o + 8) 8, size := fld b (o + 16) 8 }

/-- The CORRELATION section over `tiles` tiles. -/
def corrSection (b : Bytes) (tiles : Nat) : ProgCorr :=
  let cuts := fld b 8 2
  { nInt := fld b 0 2, k := fld b 2 2, format := fld b 4 1, stream := fld b 5 1, continues := bit (fld b 6 2) 0
    cuts := fldList b 16 2 cuts, placement := fldList b (16 + pad4 (2 * cuts)) 2 tiles }

/-- A beam set record of Table 11.5. -/
def beamRecord (b : Bytes) (o : Nat) : BeamSet :=
  { set := fld b o 1, output := fld b (o + 1) 1, beams := fld b (o + 2) 2, beamBase := fld b (o + 4) 2
    powerFmt := fld b (o + 6) 1, scale := toSigned 8 (fld b (o + 7) 1), vShift := toSigned 8 (fld b (o + 8) 1)
    groups := fld b (o + 9) 1, m := fld b (o + 10) 1, vStream := fld b (o + 11) 1, pStream := fld b (o + 12) 1
    finishCh := fld b (o + 13) 1, minPaths := fld b (o + 14) 2, chFirst := fld b (o + 16) 2, chCount := fld b (o + 18) 2
    q := fld b (o + 20) 2, pInt := fld b (o + 24) 4, weightBase0 := fld b (o + 32) 8, weightBase1 := fld b (o + 40) 8
    stageBase0 := fld b (o + 48) 8, stageBase1 := fld b (o + 56) 8, order := fldList b (o + 64) 1 (fld b (o + 9) 1) }

/-- A stream record (11 R257). A tag is held as it goes out, the PCP above a clear DEI bit and the VID (04 R78). -/
def streamRecord (b : Bytes) (o : Nat) : ProgStream :=
  let tag := fld b (o + 16) 2
  { hp := fld b o 1, dscp := fld b (o + 1) 1, mac := fld b (o + 2) 6, ip := fld b (o + 8) 4, srcUdp := fld b (o + 12) 2
    dstUdp := fld b (o + 14) 2, tag := if bit tag 15 then some (bits tag 14 12 * 2 ^ 13 + tag % 2 ^ 12) else none }

/-! ### CODE, READS, TRANSFERS, ACTS and HANDOVER (11 R258 to R261) -/

/-- The CODE entries from an offset on, each with its offset; also whether they end with the section. -/
def codeList (fuel : Nat) (b : Bytes) (off : Nat) : List (Nat × ProgCode) × Bool :=
  match fuel with
  | 0 => ([], b.length == off)
  | fuel + 1 =>
    if b.length ≤ off then ([], b.length == off)
    else
      let tabs := fld b (off + 2) 1
      let cw := fld b (off + 4) 2
      let kw := fld b (off + 6) 2
      let at' := off + 16 + 4 * (cw + kw)
      let c : ProgCode := {
        engine := fld b off 2, code := fldList b (off + 16) 4 cw, consts := fldList b (off + 16 + 4 * cw) 4 kw
        tables := (List.range tabs).map fun t => ((List.range 32).map fun i =>
          (fld b (at' + 64 * t + 2 * i) 1, fld b (at' + 64 * t + 2 * i + 1) 1)).filter fun x => x.1 != 0xFF }
      let (rest, ok) := codeList fuel b (at' + 64 * tabs)
      ((off, c) :: rest, ok)

/-- The schedules from an offset on, each with its offset; also whether they end with the section. -/
def scheduleList (fuel : Nat) (b : Bytes) (off : Nat) : List (Nat × List ReadEntry) × Bool :=
  match fuel with
  | 0 => ([], b.length == off)
  | fuel + 1 =>
    if b.length ≤ off then ([], b.length == off)
    else
      let n := fld b off 4
      let es : List ReadEntry := (List.range n).map fun i =>
        let o := off + 4 + 8 * i
        { chFirst := fld b o 2, chCount := fld b (o + 2) 2, groupFirst := fld b (o + 4) 1, groupCount := fld b (o + 5) 1 }
      let (rest, ok) := scheduleList fuel b (off + 4 + 8 * n)
      ((off, es) :: rest, ok)

/-- How many chains the directory of TRANSFERS holds: the first count at which the descriptors that its chains name fill the
rest of the section (log entry 29). -/
def chainCount (fuel : Nat) (b : Bytes) (e top : Nat) : Option Nat :=
  match fuel with
  | 0 => none
  | fuel + 1 =>
    if e ≠ 0 ∧ 8 * e + 32 * top = b.length then some e
    else if b.length < 8 * (e + 1) + 32 * top then none
    else chainCount fuel b (e + 1) (max top (fld b (8 * e) 4 + fld b (8 * e + 4) 4))

/-- An act record of Table 11.6. -/
def actRecord (b : Bytes) (o : Nat) : Act :=
  { kind := fld b o 1, flags := fld b (o + 1) 1, phase := fld b (o + 2) 2, first := fld b (o + 4) 2, count := fld b (o + 6) 2
    entry := fld b (o + 8) 2, subscr := fld b (o + 10) 1, beamSet := fld b (o + 11) 1, ref := fld b (o + 12) 4
    dmaCh := fld b (o + 16) 1, trigger := fld b (o + 17) 1 }

/-- A handover entry. -/
def handoverRecord (b : Bytes) (o : Nat) : Handover :=
  { tile := fld b o 2, srcEngine := fld b (o + 2) 2, srcSlot := fld b (o + 4) 1, dstEngine := fld b (o + 5) 2
    dstSlot := fld b (o + 7) 1 }

/-- Records of `w` bytes that fill a section. -/
def records {α : Type} (b : Bytes) (w : Nat) (f : Bytes → Nat → α) : List α :=
  (List.range (b.length / w)).map fun i => f b (w * i)

/-- The programme that an image holds, section by section. -/
def parseImage (img : Bytes) : Programme :=
  let secs := imageSections img
  let sec := sectionBytes img secs
  let mesh := sec 1
  let ch := sec 2
  let delay := sec 3
  let mem := sec 4
  let corr := sec 5
  let beams := sec 6
  let trans := sec 10
  let format := fld img 24 1
  let groups := fld img 25 1
  let gen := fld img 8 4
  let s := fld ch 0 2
  let pA := fld ch 2 1
  let c := fld ch 6 2
  let pB := fld ch 20 1
  let f := (if bit format 0 then 1 else 2) * s
  let oB := 32 + 4 * pA * f
  let oP := oB + 4 * pB * c
  let chains := (chainCount (trans.length + 1) trans 0 0).getD 0
  { generation := gen, fsHz := fld img 16 4, n := fld img 20 4, format := format, groups := groups
    imageSize := fld img 12 4, devices := fld mesh 0 1, device := fld mesh 1 1, owners := fldList mesh 16 1 (fld mesh 4 2)
    localPaths := fldList mesh (meshLocals mesh) 2 (fld mesh 6 2), links := (linkList mesh (fld mesh 8 2) (meshLinks mesh)).1
    slices := s, pA := pA, prototype := fld ch 3 1, binBase := fld ch 4 2, c := c, slShift := fld ch 8 4
    fbShift := fld ch 12 4, groupDelay := fld ch 16 4, pB := pB, precision := fld ch 21 1, dcShift := fld ch 22 1
    hA := coeffs ch 32 (pA * f), hB := coeffs ch oB (pB * c)
    paths := (List.range (fld ch 24 2)).map fun i => pathRecord ch (oP + 16 * i)
    delay := if delay.isEmpty then none else some (delaySegment gen 0 delay)
    shares := fldList mem 2 2 5, regions := (List.range (fld mem 0 2)).map fun i => regionRecord mem (16 + 24 * i)
    corr := if corr.isEmpty then none else some (corrSection corr (groups * (groups + 1) / 2))
    beams := (List.range (fld beams 0 1)).map fun i => beamRecord beams (16 + 192 * i)
    streams := records (sec 7) 24 streamRecord
    codes := (codeList (sec 8).length (sec 8) 0).1.map (·.2), schedules := (scheduleList (sec 9).length (sec 9) 0).1
    chains := (List.range chains).map fun i => (fld trans (8 * i) 4, fld trans (8 * i + 4) 4)
    descriptors := (List.range ((trans.length - 8 * chains) / 32)).map fun i => slice trans (8 * chains + 32 * i) 32
    acts := records (sec 11) 32 actRecord, handovers := records (sec 12) 8 handoverRecord }

end Sys2Proof.Machine
end

