-- ==== Sys2Proof/Machine/EngineOps.lean ====
section
/-! DEFINITION. The instructions that can stall: when each goes on and what it then does; passes in the array, replay and
write-back; and the commands of the array and the Carousel (08 R186 to R194, R199, R201 to R205; 09 R215, R224 to R227;
10 R232 to R234, R242, R243). -/

namespace Sys2Proof.Machine

/-! ### Instructions that can stall (08 R192, R198) -/

/-- Whether beam work is shed: stage 2 or a deeper one is in force (10 R242). -/
def State.beamShed (s : State) : Bool := decide (2 ≤ s.pwr.low)

/-- Whether the pass in the array has streamed to its end. -/
def Engine.streamDone (g : Engine) : Bool := g.stream.isSome && !g.starved && !g.replaying

/-- What holds an instruction of engine `e` back: 2 its feed, 3 its token, 4 BUSY, 5 a full queue, 6 the array or a request
count; none, and it goes on. -/
def engWaits (s : State) (e : Nat) (op : EngOp) : Option Nat :=
  let g := s.eng e
  let busy := fun i => (g.slot i).busyBy != 0
  match op with
  | .waitf k n => if (tget g.rings k {}).fill < min n (g.len k) then some 2 else none
  | .psync => if g.arrayIdle then none else some 6
  | .tacq i gt _ h =>
    if busy i then some 4
    else
      let t := s.token (g.reg gt % 2 ^ 14)
      if h && !(t.state == 2 && t.gen == g.gen % 256) then some 3 else none
  | .trel i _ => if busy i then some 4 else none
  | .tclr i => if busy i then some 4 else none
  | .pass _ _ i _ _ _ _ => if 2 ≤ g.queue.length then some 5 else if busy i then some 4 else none
  | .bload _ _ _ =>
    if s.beamShed then none
    else if g.queue.any (fun p => p.beam) || (match g.stream with | some p => !p.beam && !g.streamDone | none => false) then some 6
    else none
  | .bpass _ i _ => if s.beamShed then none else if 2 ≤ g.queue.length then some 5 else if busy i then some 4 else none
  | .dkick ch => if 255 ≤ (tget s.dma.channels ch {}).reqCount then some 6 else none

/-- The instructions after which a stop takes effect inside a REPEAT body (08 R201). -/
def EngOp.sync : EngOp → Bool
  | .dkick _ => false
  | _ => true

/-- Issues a pass to the queue and sets BUSY of its slot (08 R192, R199). -/
def issuePass (e : Nat) (p : ArrayPass) (s : State) : State :=
  let s := s.onEng e fun g => { g with queue := g.queue ++ [{ p with number := g.issued + 1 }], issued := g.issued + 1 }
  s.onEngSlot e p.slot fun x => { x with busyBy := 1 }

/-- SCALE of the beam set bound to an engine (10 R233). -/
def State.boundScale (s : State) (e : Nat) : Int :=
  match (s.eng e).beamSet with
  | some b => match (s.engProg e).beams.find? fun x => x.set == b with
    | some x => x.scale
    | none => 0
  | none => 0

/-- The exponent that a pass takes from a register, saturated to -64 to +64 (09 R214). -/
def passScale (v : Int) : Int := clampInt (-64) 64 v

/-- Lines per stream of a correlation pass, L = K / spw (08 Table 8.2). -/
def Programme.passLines (p : Programme) : Nat := (match p.corr with | some c => c.k | none => 16) / p.spw

/-- What a stalling instruction does once nothing holds it back. -/
def engDo (e : Nat) (op : EngOp) (s : State) : State :=
  let g := s.eng e
  let p := s.engProg e
  match op with
  | .waitf _ _ => s
  | .psync => s
  | .tacq i gt gc h =>
    let tile := g.reg gt % 2 ^ 14
    let s := if h then s.setToken tile {} else s
    s.onEngSlot e i fun x => { x with tile := tile, chan := g.reg gc % 2 ^ 16, valid := true, tokenWait := false }
  | .trel i bad =>
    let s := match bad with
      | some b => poisonSlot e i (locBit .S e b) (engCount e 11 1 s)
      | none => s
    (s.onEngSlot e i fun x => { x with valid := false }).setToken (g.slot i).tile { state := 1, gen := g.gen % 256 }
  | .tclr i => s.onEngSlot e i fun x => { x with records := [], overflow := false, poisoned := false }
  | .pass kr kc i gs real ir ic =>
    let n := p.passLines
    let s := issuePass e { beam := false, row := g.streamOf kr, col := g.streamOf kc, lines := n, slot := i
                           scale := passScale (g.sreg gs), real := real, spw := p.spw, number := 0 } s
    s.onEng e fun g =>
      let g := if ir then g.advanceAddr kr n else g
      if ic then g.advanceAddr kc n else g
  | .bload k iw bad =>
    if s.beamShed then s
    else
      let st := g.streamOf k
      let s := if bad.isSome then engCount e 10 1 s else s
      s.onEng e fun g =>
        let g := { g with
          weights := (List.range 16).flatMap fun r => (g.lineAt (st.line r)).map fun w =>
            (toSigned 12 (bits w 23 12), toSigned 12 (bits w 11 0))
          badWeights := bad.orElse fun _ => ((List.range 16).findSome? fun r => tfind g.bad (st.line r)).map (·.1) }
        if iw then g.advanceAddr k 16 else g
  | .bpass kc i ic =>
    if s.beamShed then
      s.onEngSlot e i fun x =>
        { x with records := (List.range 256).map fun m =>
            let r := tget x.records m {}
            (m, { r with weight := setBit r.weight 31 }) }
    else
      let n := 16 / p.spw
      let s := issuePass e { beam := true, row := g.streamOf kc, col := g.streamOf kc, lines := n, slot := i
                             scale := s.boundScale e, real := false, spw := p.spw, set := g.beamSet, number := 0 } s
      s.onEng e fun g => if ic then g.advanceAddr kc n else g
  | .dkick ch =>
    { s with dma := { s.dma with channels := tmod s.dma.channels ch {} fun c => { c with reqCount := c.reqCount + 1 } } }

/-- An operation that finds its slot BUSY: counted, with cause TILE_CONFLICT and EV_TILE_CONFLICT_STALL (08 R192). -/
def conflictStall (e : Nat) (s : State) : State := raise 999 (engCause e 4 (engCount e 8 1 s))

/-- Completes a stalling instruction. -/
def engFinish (e : Nat) (op : EngOp) (s : State) : State :=
  (engDo e op s).onEng e fun g => ({ g with stall := none, stallLong := false, syncPoint := op.sync } : Engine).after g.pc

/-- An instruction begins to wait for a kind of thing: BUSY is a conflict, but for TACQ, which R192 does not list; TACQ with its
token shows TOKEN_WAIT (08 R191, R192). -/
def beginWait (e : Nat) (op : EngOp) (kind : Nat) (s : State) : State :=
  let s := s.onEng e fun g => { g with stall := some op, stallSince := s.cycle, stallKind := kind, stallLong := false }
  match op with
  | .tacq i _ _ _ => if kind = 3 then s.onEngSlot e i fun x => { x with tokenWait := true } else s
  | _ => if kind = 4 then conflictStall e s else s

/-- Issues an instruction that can stall. -/
def seqStall (e : Nat) (op : EngOp) (s : State) : State :=
  if s.seqReady e then
    match engWaits s e op with
    | none => engFinish e op s
    | some kind => beginWait e op kind s
  else s

/-- The stall counter of R206 for a kind of stall. -/
def stallCounter (kind : Nat) : Option Nat :=
  match kind with
  | 2 => some 4
  | 3 => some 6
  | 4 => some 5
  | 5 => some 7
  | _ => none

/-- The cycles that a stalled instruction has waited for its present reason are counted (08 R206). -/
def countStall (e : Nat) (s : State) : State :=
  match stallCounter (s.eng e).stallKind with
  | some i => engCount e i (s.cycle - (s.eng e).stallSince) s
  | none => s

/-! ### Passes in the array (08 R189, R199; 09 R224, R225) -/

/-- Whether a ring has filled a stream's line at position `i`; a ring of length 0 has no lines to wait for (08 R189; log
entry 21). -/
def lineFilled (g : Engine) (l : LineStream) (i : Nat) : Bool :=
  if l.len = 0 then true
  else
    let r := tget g.rings l.ring {}
    let o := ringOffset l.base (l.line i)
    decide ((r.wpos + l.len - 1 - o) % l.len < r.fill)

/-- Whether every line of a pass is there. -/
def passFed (g : Engine) (p : ArrayPass) : Bool :=
  (List.range p.lines).all fun i => (p.beam || lineFilled g p.row i) && lineFilled g p.col i

/-- FREEF takes effect: the fill falls by at most what there is. -/
def freeRing (g : Engine) (k n : Nat) : Engine :=
  { g with rings := tmod g.rings k {} fun r => { r with fill := r.fill - min n r.fill } }

/-- A pass has finished streaming, and the FREEFs that waited for it take effect (08 Table 8.8). -/
def passStreamed (number : Nat) (g : Engine) : Engine :=
  let g := { g with streamed := number }
  let due := g.frees.filter fun f => decide (f.1 ≤ number)
  due.foldl (fun g f => freeRing g f.2.1 f.2.2) { g with frees := g.frees.filter fun f => decide (number < f.1) }

/-- The first parity failure that a pass meets as it streams: the position in its stream, the bit, and whether it failed in
transit (08 R186). -/
def badLine (g : Engine) (p : ArrayPass) : Option (Nat × Nat × Bool) :=
  (List.range p.lines).findSome? fun i => (p.keysAt i).findSome? fun k => (tfind g.bad k).map fun b => (i, b.1, b.2)

/-- The array cycles that `n` lines of a pass take: one a line, and 16 for the granule of a beam pass (08 R199, 10 R234). -/
def ArrayPass.cycles (p : ArrayPass) (n : Nat) : Nat := if p.beam then n * p.spw else n

/-- The location code of a parity failure on an operand (09 R227). -/
def operandLoc (e bit : Nat) (transit : Bool) : Bytes := if transit then locBit .K (e / 16) bit else locBit .O e bit

/-- A slot is free of its pass. -/
def freeSlot (e i : Nat) (s : State) : State := s.onEngSlot e i fun x => { x with busyBy := 0, replays := 0 }

/-- The pass in the array streams, if its lines are there: to its sums, to an abort with a replay, or, at the third
failure, to poison (09 R212, R224, R225). -/
def tryStream (e : Nat) (s : State) : State :=
  let g := s.eng e
  match g.stream with
  | none => s
  | some p =>
    if !passFed g p then s.onEng e fun g => { g with starved := true }
    else
      let s := if g.starved then
          (engCount e 4 (s.cycle - g.streamSince) s).onEng e fun g => { g with starved := false, stallLong := false }
        else s
      match badLine g p with
      | some (i, b, transit) =>
        let s := engCount e 2 (p.cycles (i + 1)) s
        if p.replays = 2 then
          let s := freeSlot e p.slot (poisonSlot e p.slot (operandLoc e b transit) s)
          takePutOff e (s.onEng e fun g => { passStreamed p.number g with stream := none, replaying := false })
        else
          let n := p.replays + 1
          let s := s.onEng e fun g => { g with stream := some { p with replays := n }, replaying := true }
          engCause e 1 (engCount e 12 1 (s.onEngSlot e p.slot fun x => { x with replays := n }))
      | none =>
        let sums := if p.beam then beamSums g p else correlate g p
        (engCount e 2 (p.cycles p.lines) s).onEng e fun g =>
          { passStreamed p.number g with stream := some { p with sums := sums }, lastSlot := p.slot, replaying := false }

/-- Marks lines and vectors whose parity fails on a feed write or a stream read, with the bit (08 R186). -/
def markBad (e : Nat) (lines : List (Nat × Nat)) (transit : Bool) (s : State) : State :=
  let s := if lines.isEmpty then s else engCount e (if transit then 9 else 10) lines.length s
  s.onEng e fun g => { g with bad := lines.foldl (fun t l => tput t l.1 (l.2, transit)) g.bad }

/-- PASS_STREAM_START: the array is free, and the oldest queued pass starts streaming; a beam pass copies the weight buffer as it
starts (10 R232). Lines, and from 4,096 on validity vectors, of the list, with the failing bit, fail their parity as they are read
(08 R186, R199). -/
def execPassStreamStart (e : Nat) (bad : List (Nat × Nat)) (s : State) : Host.Outcome State Fault Refusal :=
  .next (
    let g := s.eng e
    let free := g.stream.isNone || (g.streamDone && decide (g.writeBack.length < 2))
    match g.queue with
    | p :: rest =>
      if s.engLive e && !s.stopAsked e && free then
        let p := if p.beam then { p with weights := g.weights, badWeights := g.badWeights } else p
        let s := s.onEng e fun g =>
          { g with writeBack := g.writeBack ++ g.stream.toList, stream := some p, queue := rest, streamSince := s.cycle
                   starved := false, replaying := false, lastSlot := p.slot }
        tryStream e (markBad e (bad.filter fun b => p.keys.contains b.1) false s)
      else s
    | [] => s)

/-- Rewrites the lines and vectors of a block from `first` on, wrapping in its ring (08 R187, R188; 09 R224). -/
def writeBlock (g : Engine) (spw base len first : Nat) (b : CarouselBlock) : Engine :=
  (List.range b.lines.length).foldl (fun g i =>
    let a := (if len = 0 then base else base + (ringOffset base first + i) % len) % 3072
    { g with lines := tput g.lines a (b.lines.getD i []), valid := tput g.valid (a * spw / 16) b.vector
             bad := tdel (tdel g.bad a) (4096 + a * spw / 16) }) g

/-- Whether the corner turn still holds every block that a read block takes (07 R161). -/
def State.ringHolds (s : State) (p : Programme) (id : BlockId) : Bool :=
  match p.region 1 with
  | some ring => (List.range 16).all fun c =>
    match laneStart s p ring id.frame (16 * id.group + c) id.kappa id.r with
    | some m => [m / 256, (m + 255) / 256].all fun β =>
      (s.ringEntry ring.base (β % ring.depth)).state != 0 && (s.ringEntry ring.base (β % ring.depth)).block == β
    | none => true
  | none => false

/-- The programme that a Carousel block belongs to. -/
def State.blockOwner (s : State) (e : Nat) (id : BlockId) : Programme := (s.progGen id.gen).getD (s.engProg e)

/-- A replay block: read again, or, where the ring has since released it, as it was first delivered, so that a replay changes timing
only (01 R13; 09 R224; DESIGN CHOICE, log entry 159). -/
def replayBlock (e : Nat) (b : CarouselBlock) (s : State) : State × CarouselBlock :=
  let owner := s.blockOwner e b.id
  if s.ringHolds owner b.id then (readBlockTaken s owner b.id, readBlock s owner b.id) else (s, b)

/-- The replay blocks of the pass in the array, each once, are written over their lines and vectors; what no read block filled has
nothing to be read again from (09 R224). -/
def replayBlocks (e : Nat) (p : ArrayPass) (s : State) : State :=
  let s := (failedBlocks (s.eng e) p).foldl (fun s b =>
    let (s, blk) := replayBlock e b.2.2 s
    s.onEng e fun g => { writeBlock g p.spw b.1.base b.1.len b.2.1 blk with blocks := tput g.blocks b.2.1 blk }) s
  s.onEng e fun g => { g with bad := g.bad.filter fun b => !p.keys.contains b.1 }

/-- The bytes that the replay of a pass reads through CT_READ (09 R224). -/
def replayBytes (s : State) (e : Nat) (p : ArrayPass) : Nat :=
  sumOf (fun b => if s.ringHolds (s.blockOwner e b.2.2.id) b.2.2.id then
    sumOf (·.2) (blockReads s (s.blockOwner e b.2.2.id) b.2.2.id) else 0) (failedBlocks (s.eng e) p)

/-- PASS_REPLAY: the replay blocks arrive through CT_READ, ahead of the reader's own reads, and the pass streams again; a replay waits
for a frozen controller and for the port's regulator (07 R170, 09 R224). -/
def execPassReplay (e : Nat) (bad : List (Nat × Nat)) (s : State) : Host.Outcome State Fault Refusal :=
  .next (
    match (s.eng e).stream with
    | some p =>
      if s.engLive e && (s.eng e).replaying && s.granted 1 (replayBytes s e p) then
        let s := replayBlocks e p s
        let s := s.onEng e fun g => { g with replaying := false }
        releaseRead (tryStream e (markBad e (bad.filter fun b => p.keys.contains b.1) false s))
      else s
    | none => s)

/-- The pass whose write-back comes next. -/
def Engine.nextWriteBack (g : Engine) : Option ArrayPass :=
  match g.writeBack with
  | p :: _ => some p
  | [] => if g.streamDone then g.stream else none

/-- Takes that pass out of the write-back unit or the array. -/
def Engine.tookWriteBack (g : Engine) : Engine :=
  match g.writeBack with
  | _ :: rest => { g with writeBack := rest }
  | [] => { g with stream := none }

/-- The write-back of the oldest pass of a kind completes; a scratchpad word read for it may fail parity in a bit. -/
def completeWriteBack (e : Nat) (beam : Bool) (bad : Option Nat) (s : State) : State :=
  match (s.eng e).nextWriteBack with
  | some p =>
    if s.engLive e && p.beam == beam then
      let s := s.onEng e Engine.tookWriteBack
      let s := match bad with
        | some b => poisonSlot e p.slot (locBit .S e b) (engCount e 11 1 s)
        | none => s
      let s := match p.badWeights with
        | some b => poisonSlot e p.slot (locBit .O e b) s
        | none => s
      let s := engCount e (if beam then 1 else 0) 1 (writeBackPass e p s)
      takePutOff e (match beam, p.set with
        | true, some b =>
          { s with beams := tmod s.beams b {} fun x => { x with counters := tmod x.counters 0 0 (satInc 32) } }
        | _, _ => s)
    else s
  | none => s

/-- PASS_WRITE_BACK: a pass's beat sums are converted and added to its slot's records (09 R215). -/
def execPassWriteBack (e : Nat) (bad : Option Nat) (s : State) : Host.Outcome State Fault Refusal :=
  .next (completeWriteBack e false bad s)

/-- BPASS_WRITE_BACK: a beam pass's row sums are added to its slot's records (10 R233). -/
def execBpassWriteBack (e : Nat) (bad : Option Nat) (s : State) : Host.Outcome State Fault Refusal :=
  .next (completeWriteBack e true bad s)

/-! ### Stalls, stops and the stores (08 R192, R201, R203, R205) -/

/-- ENGINE_STALL_RESUME: what a stalled instruction, or the pass in the array, waited for is there; an instruction that something
else now holds back waits for that (08 R189, R192). Under a stop request the pass that streams completes, while the sequencer stops where it
stalls (08 R201). -/
def execEngineStallResume (e : Nat) (s : State) : Host.Outcome State Fault Refusal :=
  .next (
    if s.engLive e && !(s.eng e).stopped then
      let s := if (s.eng e).starved then tryStream e s else s
      let g := s.eng e
      match (if s.seqStops e then none else g.stall) with
      | some op => match engWaits s e op with
        | some kind => if kind = g.stallKind then s else beginWait e op kind (countStall e s)
        | none => engFinish e op (countStall e s)
      | none => s
    else s)

/-- ENG_STALL_WARN: after `dt` core cycles a feed or token wait has lasted longer than ENG_STALL_WARN_US: a WAITF, a pass that waits
for its lines, or the feed that waits for room (08 R189, R194, R205). -/
def execEngStallWarn (e dt : Nat) (s : State) : Host.Outcome State Fault Refusal :=
  .next (
    let s := s.advance dt
    let g := s.eng e
    let long := fun since => decide (since + s.eff 0x0800 * 1000 < s.cycle)
    let s := if g.stall.isSome && long g.stallSince && !g.stallLong then
        (let s := s.onEng e fun g => { g with stallLong := true }
         if g.stallKind = 2 then engCause e 5 s else if g.stallKind = 3 then engCause e 6 s else s)
      else s
    let held := match tfind s.car.heldBy e with | some c => long c | none => false
    if (g.starved && long g.streamSince) || held then engCause e 5 s else s)

/-- ENGINE_STOP: a stop request holds, the array has completed the pass it was streaming and its write-back, and the sequencer is
at an interruptible point (08 R201, 09 R225). -/
def execEngineStop (e : Nat) (s : State) : Host.Outcome State Fault Refusal :=
  .next (
    let g := s.eng e
    if s.engLive e && s.stopAsked e && !g.stopped && g.interruptible && g.stream.isNone && g.writeBack.isEmpty then
      let s := if g.stall.isSome then countStall e s else s
      engCause e 0 (s.onEng e fun g => { g with stopped := true })
    else s)

/-- The CODE entry of an engine in the image of its programme, as the programme slot in HBM holds it (11 R247). -/
def imageCode (s : State) (e : Nat) : Option ProgCode :=
  match s.runningSlot (s.eng e).gen with
  | some i => (parseImage (s.hbmRead (slotBase s.fuses.variant i) ((s.slot i).imageSize.getD 0))).codeOf e
  | none => none

/-- A store word is replaced by that of the image; a word that the image does not hold keeps its value (08 R203). -/
def refetchWord (c : ProgCode) (const : Bool) (addr : Nat) (g : Engine) : Engine :=
  if const then match c.consts[addr % 1024]? with
    | some w => { g with consts := tput g.consts (addr % 1024) w }
    | none => g
  else match c.code[addr % 4096]? with
    | some w => { g with code := g.code.set (addr % 4096) w }
    | none => g

/-- STORE_REFETCH: a word of the programme store or, with `const`, of the constant store fails parity in a bit; it is
refetched from the image, once the controller runs, and a second failure at the address within the act stops the sequencer and poisons
its VALID slots (08 R203; 07 R177). -/
def execStoreRefetch (e : Nat) (const : Bool) (addr b : Nat) (s : State) : Host.Outcome State Fault Refusal :=
  .next (
    let g := s.eng e
    let key := if const then 4096 + addr % 1024 else addr % 4096
    if !s.engLive e || g.fault || s.hbm.state != 0 then s
    else if g.refetched.contains key then
      let loc := locBit (if const then .J else .I) e b
      let s := engCauseFault e 7 (some { loc := loc }) (s.onEng e fun g => { g with fault := true })
      ((List.range 42).filter fun i => (g.slot i).valid).foldl (fun s i => poisonSlot e i loc s) s
    else
      let s := match imageCode s e with
        | some c => s.onEng e (refetchWord c const addr)
        | none => s
      engCause e 8 (engCount e 14 1 (s.onEng e fun g => { g with refetched := key :: g.refetched })))

/-- ENGINE_CAUSE_W1C: the bits written as 1 clear (15 R360). -/
def execEngineCauseW1c (e mask : Nat) (s : State) : Host.Outcome State Fault Refusal :=
  .next (if e < enginesOf s.fuses.variant ∧ s.dmaLive = true then
      s.onEng e fun g => { g with cause := g.cause - (g.cause &&& mask) }
    else s)

/-! ### The Carousel (08 R187 to R189) -/

/-- The feed ring of a path group in the engine's subscription table. -/
def Engine.ringFor (g : Engine) (group : Nat) : Option Nat :=
  match g.subscr.find? fun x => x.1 == group with
  | some x => some x.2
  | none => none

/-- The engines that subscribe to a path group, with their rings. -/
def subscribers (s : State) (group : Nat) : List (Nat × Nat) :=
  s.engines.filterMap fun e => match e.2.ringFor group with
    | some k => if e.1 < enginesOf s.fuses.variant then some (e.1, k) else none
    | none => none

/-- Whether a ring has room for a block; a ring of length 0 discards it. -/
def ringRoom (g : Engine) (k n : Nat) : Bool := g.len k == 0 || decide ((tget g.rings k {}).fill + n ≤ g.len k)

/-- Writes a block into a feed ring (08 R188). -/
def feedBlock (e k spw : Nat) (b : CarouselBlock) (bad : List (Nat × Nat)) (s : State) : State :=
  let g := s.eng e
  if g.len k = 0 then engCause e 10 (engCount e 16 1 s)
  else
    let r := tget g.rings k {}
    let n := b.lines.length
    let at' := fun i => (g.base k + (r.wpos + i) % g.len k) % 3072
    let s := s.onEng e fun g =>
      let g := writeBlock g spw (g.base k) (g.len k) (g.base k + r.wpos) b
      let taken := (List.range n).map at'
      { g with rings := tput g.rings k { wpos := (r.wpos + n) % g.len k, fill := r.fill + n }
               blocks := tput (g.blocks.filter fun x => !taken.contains x.1) (at' 0) b }
    let key := fun i => if i < 256 then at' i else 4096 + at' ((i - 256) * 16 / spw) * spw / 16
    markBad e ((bad.filter fun x => decide (x.1 < n) || (decide (256 ≤ x.1) && decide (x.1 < 272))).map fun x =>
      (key x.1, x.2)) true s

/-- The cycles that the block at the root has waited for room since they were last counted go to the engines without room
(08 R189, R206). -/
def countHeld (s : State) : State :=
  match s.car.heldSince with
  | some c => s.car.heldBy.foldl (fun s x => engCount x.1 3 (s.cycle - c) s) s
  | none => s

/-- CAROUSEL_BLOCK_DELIVER: the block at the root goes to every engine that subscribes to its path group, once each has
room; entries of `bad` name an engine, a line of the block, or from 256 on a validity vector, and a bit that fails parity on the
feed write (08 R186 to R189). -/
def execCarouselBlockDeliver (bad : List (Nat × Nat × Nat)) (s : State) : Host.Outcome State Fault Refusal :=
  .next (
    match s.car.root with
    | some b =>
      if !s.coreLive then s
      else
        let fed := subscribers s b.id.group
        let full := fed.filter fun x => !ringRoom (s.eng x.1) x.2 b.lines.length
        let s := countHeld s
        if full.isEmpty then
          let spw := match s.progGen b.id.gen with | some p => p.spw | none => 1
          let s := fed.foldl (fun s x => feedBlock x.1 x.2 spw b ((bad.filter fun y => y.1 == x.1).map (·.2)) s) s
          { s with car := { s.car with root := none, heldSince := none, heldBy := [] } }
        else { s with car := { s.car with
          heldSince := some s.cycle
          heldBy := full.foldl (fun t x => tput t x.1 (tget s.car.heldBy x.1 s.cycle)) [] } }
    | none => s)

end Sys2Proof.Machine
end

