-- ==== Sys2Proof/Machine/Egress.lean ====
section
/-! DEFINITION. Egress packets: record conversions, headers, flags and the sending of a packet on a stream
(04_ethernet_and_packets.md R89 to R96; 12 R289). -/

namespace Sys2Proof.Machine

/-! ### Records (04 R92, R93) -/

/-- A binary32 value truncated toward zero to binary16; beyond 65,504 an infinity; poison as 0x7E00. -/
def toHalf (x : Nat) : Nat :=
  let sign := if neg32 x then 2 ^ 15 else 0
  if isNan32 x then 0x7E00
  else if isInf32 x then sign + 0x7C00
  else
    -- the magnitude in units of 2^-24, the smallest binary16 value
    let m := mag32 x / 2 ^ 125
    if 2 ^ 40 ≤ m then sign + 0x7C00
    else
      let b := Nat.log2 m
      sign + (if b ≤ 10 then m else (b - 9) * 2 ^ 10 + (m / 2 ^ (b - 10) - 2 ^ 10))

/-- A binary32 value truncated toward zero to the legacy int32. -/
def toLegacy (x : Nat) : Nat :=
  if isNan32 x then 0x80000000
  else if isInf32 x then (if neg32 x then 0x80000001 else 0x7FFFFFFF)
  else
    let m : Nat := mag32 x / 2 ^ 149
    if neg32 x then (if m < 2 ^ 31 then ofSigned 32 (-(m : Int)) else 0x80000001)
    else if m < 2 ^ 31 then m else 0x7FFFFFFF

/-- The bytes of a visibility record in a format (04 Table 4.9). -/
def visRecord (format : Nat) (r : Rec32) : Bytes :=
  match format with
  | 0 => be 4 r.re ++ be 4 r.im ++ be 4 r.weight
  | 1 => be 2 (toHalf r.re) ++ be 2 (toHalf r.im) ++ be 4 r.weight
  | _ => be 4 (toLegacy r.re) ++ be 4 (toLegacy r.im)

/-- Bytes of a visibility record in a format. -/
def visSize (format : Nat) : Nat := if format = 0 then 12 else 8

/-- The records that a byte string of 12-byte records holds (08 R190). -/
def recsOf (b : Bytes) : List Rec32 :=
  (List.range (b.length / 12)).map fun i =>
    { re := fld b (12 * i) 4, im := fld b (12 * i + 4) 4, weight := fld b (12 * i + 8) 4 }

/-- The bytes of a record as slots and spill areas hold it. -/
def Rec32.bytes (r : Rec32) : Bytes := be 4 r.re ++ be 4 r.im ++ be 4 r.weight

/-- The 3,072 bytes of a slot. -/
def EngSlot.bytes (x : EngSlot) : Bytes := (List.range 256).flatMap fun m => (tget x.records m {}).bytes

/-- Whether a record as sent is infinite, and whether it is poison (04 Table 4.10). -/
def visFlags (format : Nat) (r : Rec32) : Bool × Bool :=
  let inf := fun x => if format = 1 then toHalf x % 2 ^ 15 == 0x7C00 else isInf32 x
  (inf r.re || inf r.im, isNan32 r.re || isNan32 r.im)

/-! ### The header and the sending -/

/-- What a packet's header says beyond its kind-dependent bytes. -/
structure EgressHead where
  kind : Nat
  generation : Nat
  orbit : Nat
  dependent : Bytes
  flags : Nat

/-- The 40-byte header (04 Table 4.7). -/
def egressHeader (s : State) (h : EgressHead) : Bytes :=
  let st := tget s.orb.stamps h.orbit {}
  [0x47, 0x45, 1] ++ be 1 h.kind ++ be 4 h.generation ++ be 8 h.orbit ++ h.dependent ++ be 2 h.flags ++ be 2 st.epoch ++
    be 8 st.packed

/-- Adds to a counter of a stream. -/
def streamCount (i c k : Nat) (s : State) : State :=
  { s with streams := tmod s.streams i [] fun t => tmod t c 0 fun n => satAdd 32 n k }

/-- A packet due on a stream: sent on its half-port, or discarded, counted and EV_EG_DROP raised (04 R96). Also says
whether it was sent. Its bytes are those of the UDP payload (DESIGN CHOICE, log entry 161). -/
def sendEgress (p : Programme) (stream : Nat) (packet : Bytes) (s : State) : State × Bool :=
  match p.streams[stream]? with
  | none => (s, false)
  | some r =>
    if s.ethUp r.hp then
      (streamCount stream 1 packet.length (streamCount stream 0 1
        (sendUdp r.hp r.mac r.tag r.dscp r.ip r.srcUdp r.dstUdp packet s)), true)
    else (raise 986 (streamCount stream 2 1 s), false)

/-- Whether an orbit of a range is flagged DEADLINE (04 Table 4.10, 06 R146). -/
def deadlineIn (s : State) (first count : Nat) : Bool :=
  s.ct.deadlineFrames.any fun n => decide (first ≤ n) && decide (n < first + count)

end Sys2Proof.Machine
end

