-- ==== Sys2Proof/Machine/Beams.lean ====
section
/-! DEFINITION. Beam sets: weight headers, the finisher's voltages and detected power, staging and its drain
(10_beamforming.md R229 to R231, R236 to R240, R244 to R246). -/

namespace Sys2Proof.Machine

/-- The state of a beam set. -/
def State.beam (s : State) (b : Nat) : BeamState := tget s.beams b {}
/-- Changes the state of a beam set. -/
def State.onBeam (s : State) (b : Nat) (f : BeamState → BeamState) : State := { s with beams := tput s.beams b (f (s.beam b)) }

/-- Adds to a counter of R244, in its order. -/
def beamCount (b i k : Nat) (s : State) : State :=
  s.onBeam b fun x => { x with counters := tmod x.counters i 0 fun n => satAdd 32 n k }

/-- BEAM_CLIP_LIMIT and BEAM_WEIGHT_CHECK as the orbit took them (10 R246). -/
def State.beamTerms (s : State) (b n : Nat) : Nat × Nat := tget (s.beam b).terms n (s.eff 0x0900, s.eff 0x0901)

/-- Entry bytes of a weight buffer, after its header (10 R230). -/
def BeamSet.weightSize (b : BeamSet) : Nat := b.chCount * ((b.beams + 15) / 16) * b.groups * 768

/-- Bytes of a power record. -/
def BeamSet.powerSize (b : BeamSet) : Nat := if b.powerFmt = 1 then 16 else 4

/-- Voltage records of a staging buffer. -/
def BeamSet.voltageBytes (b : BeamSet) (n : Nat) : Nat := if bit b.output 0 then b.beams * b.chCount * n * 2 else 0

/-- Beams, or directions in full Stokes, that have power records. -/
def BeamSet.powerBeams (b : BeamSet) : Nat := if b.powerFmt = 1 then b.beams / 2 else b.beams

/-- Voltage packets per orbit of a set (04 R91). -/
def BeamSet.voltagePackets (b : BeamSet) (n : Nat) : Nat :=
  if bit b.output 0 then b.beams * (n / max 1 b.m) * (b.chCount / max 1 b.q) else 0

/-- Power packets per orbit of a set (04 R91). -/
def BeamSet.powerPackets (b : BeamSet) (n : Nat) : Nat :=
  if bit b.output 1 then b.powerBeams * (n / max 1 b.pInt) * (b.chCount / max 1 b.q) else 0

/-- Packets per orbit of a set (10 R239). -/
def BeamSet.packets (b : BeamSet) (n : Nat) : Nat := b.voltagePackets n + b.powerPackets n

/-- Packets per orbit of a set on an egress stream (10 R240). -/
def BeamSet.packetsOn (b : BeamSet) (n stream : Nat) : Nat :=
  (if b.vStream = stream then b.voltagePackets n else 0) + (if b.pStream = stream then b.powerPackets n else 0)

/-- Finish transfers per orbit of a set: each takes 16 beams over 16 samples of a channel (10 R236). -/
def BeamSet.finishes (b : BeamSet) (n : Nat) : Nat := b.chCount * ((b.beams + 15) / 16) * (n / 16)

/-- Packets of an orbit that have left the set's staging buffer. -/
def BeamState.sentOf (x : BeamState) (orbit : Nat) : Nat :=
  x.sent.foldl (fun t e => if e.1 / 64 = orbit then t + e.2 else t) 0

/-- A packet of an orbit has left on a stream. -/
def BeamState.note (x : BeamState) (orbit stream : Nat) : BeamState :=
  { x with sent := tmod (x.sent.filter fun e => decide (orbit < e.1 / 64 + 8)) (64 * orbit + stream) 0 (· + 1) }

/-- A FINISH into the buffer of orbit `n` waits for the drain of the orbit that the buffer still holds (10 R239). -/
def stagingHeld (s : State) (b : BeamSet) (n : Nat) : Bool :=
  match tfind (s.beam b.set).staging (n % 2) with
  | some h => h.orbit != n && decide ((s.beam b.set).sentOf h.orbit < h.packets)
  | none => false

/-- The packets of orbit `n` wait for its finishes on every channel of the set (10 R239). A buffer that a later orbit holds has
nothing more to wait for. -/
def finishesDue (s : State) (b : BeamSet) (n : Nat) : Bool :=
  match tfind (s.beam b.set).staging (n % 2) with
  | some h => decide (h.orbit < n) || (h.orbit == n && decide (h.done < h.need))
  | none => true

/-! ### The weight header (10 R231) -/

/-- The header of the weight stream of orbit `n` has been read. -/
def weightHeader (b n : Nat) (header : Bytes) (s : State) : State :=
  if (s.beamTerms b n).2 = 1 ∧ ¬ (fld header 0 8 = n ∧ fld header 8 1 = b) ∧ (s.beam b).stale.contains n = false then
    raise 1000 (beamCount b 4 1 (s.onBeam b fun x => { x with stale := n :: x.stale }))
  else s

/-- Weight bytes of orbit `n` have been read; the last of them completes the reading. -/
def weightRead (b : BeamSet) (n k : Nat) (s : State) : State :=
  s.onBeam b.set fun x =>
    let t := tget x.weightBytes n 0 + k
    { x with weightBytes := tput x.weightBytes n t, lastRead := if b.weightSize ≤ t then some n else x.lastRead }

/-! ### The finisher (10 R236 to R238) -/

/-- How a sample is judged: 2 poisoned, 1 missing, 0 present (10 R236). -/
def judge (b : BeamSet) (stale bad : Bool) (r : Rec32) : Nat :=
  if bad || isNan32 r.re then 2 else if bit r.weight 31 || decide (r.weight < b.minPaths) || stale then 1 else 0

/-- A component of a voltage and whether satsym changed it (10 R237). -/
def voltage (vShift : Int) (x : Nat) : Int × Bool :=
  if isInf32 x then (if neg32 x then -127 else 127, true)
  else
    let e := (2 ^ (vShift + 149).toNat : Nat)
    let v := Int.tdiv (units32 x * (e : Int)) ((2 ^ 298 : Nat) : Int)
    (satsym v 8, satsym v 8 != v)

/-- The Stokes value of exact sums of products in units of 2^-298; infinite inputs give +infinity (10 R238). -/
def stokesOf (inf : Bool) (n : Int) : Nat := if inf then inf32 else round32Div n 149

/-- Stokes I of one beam. -/
def stokesI (r : Rec32) : List Nat :=
  let a := units32 r.re
  let b := units32 r.im
  [stokesOf (isInf32 r.re || isInf32 r.im) (a * a + b * b)]

/-- Full Stokes of the beams X and Y. -/
def stokesFull (x y : Rec32) : List Nat :=
  let inf := isInf32 x.re || isInf32 x.im || isInf32 y.re || isInf32 y.im
  let xr := units32 x.re
  let xi := units32 x.im
  let yr := units32 y.re
  let yi := units32 y.im
  [stokesOf inf (xr * xr + xi * xi + yr * yr + yi * yi), stokesOf inf (xr * xr + xi * xi - yr * yr - yi * yi),
   stokesOf inf (2 * (xr * yr + xi * yi)), stokesOf inf (2 * (xr * yi - xi * yr))]

/-- What the finisher knows of one transfer: the set, orbit, samples from `first` on, channel within the set and staging
base. -/
structure FinishCtx where
  p : Programme
  b : BeamSet
  orbit : Nat
  first : Nat
  ch : Nat
  base : Nat
  stale : Bool
  bad : Bool

/-- The voltages of 16 samples of a beam, in its staging place; also the clips (10 R237, R239). -/
def finishVoltage (c : FinishCtx) (beam : Nat) (rs : List Rec32) (s : State) : State :=
  let out := rs.map fun r =>
    if judge c.b c.stale c.bad r = 0 then
      let v := voltage c.b.vShift r.re
      let w := voltage c.b.vShift r.im
      (be 1 (ofSigned 8 v.1) ++ be 1 (ofSigned 8 w.1), b2n v.2 + b2n w.2)
    else ([0x80, 0x80], 0)
  let clips := (out.map (·.2)).foldl (· + ·) 0
  let at' := c.base + ((beam * c.b.chCount + c.ch) * c.p.n + c.first) * 2
  let s := (s.access 2 true [(at', 2 * rs.length)]).hbmWrite at' (out.flatMap (·.1))
  let verdicts := (List.range rs.length).zip (rs.map (judge c.b c.stale c.bad))
  let s := s.onBeam c.b.set fun x => { x with marks := verdicts.foldl (fun t v =>
    if v.2 = 0 then tdel t (at' + 2 * v.1) else tput t (at' + 2 * v.1) v.2) x.marks }
  let before := tget (s.beam c.b.set).clips c.orbit 0
  let limit := (s.beamTerms c.b.set c.orbit).1
  let s := beamCount c.b.set 1 clips (s.onBeam c.b.set fun x => { x with clips := tput x.clips c.orbit (before + clips) })
  if before ≤ limit ∧ limit < before + clips then raise 1001 s else s

/-- Adds the Stokes values of 16 samples to a power interval, and writes its record at the interval's end (10 R238). -/
def finishPower (c : FinishCtx) (beam : Nat) (values : List (List Nat)) (verdicts : List Nat) (s : State) : State :=
  let key := (c.b.set * 1024 + beam) * 65536 + c.b.chFirst + c.ch
  let n := c.b.powerSize / 4
  let zero : PowerSum := { sums := List.replicate n 0 }
  let a := if c.first % max 1 c.b.pInt = 0 then zero else tget s.powers key zero
  let sums := values.foldl (fun t v => (t.zip v).map fun x => add32 x.1 x.2) a.sums
  let a := { sums := sums, count := a.count + 16, poisoned := a.poisoned || verdicts.contains 2
             missing := a.missing || verdicts.contains 1 : PowerSum }
  if (c.first + 16) % max 1 c.b.pInt = 0 then
    let rec' := if a.poisoned then List.replicate n nan32 else if a.missing then List.replicate n 0xFFFFFFFF else a.sums
    let at' := c.base + c.b.voltageBytes c.p.n +
      ((beam * c.b.chCount + c.ch) * (c.p.n / max 1 c.b.pInt) + c.first / max 1 c.b.pInt) * c.b.powerSize
    (({ s with powers := tdel s.powers key } : State).access 2 true [(at', 4 * n)]).hbmWrite at' (rec'.flatMap (be 4))
  else { s with powers := tput s.powers key a }

/-- The rows of a beam block that are beams of the set. -/
def blockRows (b : BeamSet) (block : Nat) : List Nat := (List.range 16).filter fun r => decide (16 * block + r < b.beams)

/-- A FINISH transfer of a slot's 256 records (10 R236 to R239). -/
def finishSlot (c : FinishCtx) (block : Nat) (rs : List Rec32) (s : State) : State :=
  let row := fun r => (rs.drop (16 * r)).take 16
  let rows := blockRows c.b block
  let verdicts := rows.flatMap fun r => (row r).map (judge c.b c.stale c.bad)
  let s := beamCount c.b.set 3 (verdicts.count 1) (beamCount c.b.set 2 (verdicts.count 2) s)
  let s := if verdicts.contains 1 then raise 1002 s else s
  let s := if bit c.b.output 0 then rows.foldl (fun s r => finishVoltage c (16 * block + r) (row r) s) s else s
  if bit c.b.output 1 then
    if c.b.powerFmt = 1 then
      (rows.filter fun r => r % 2 == 0).foldl (fun s r =>
        let pairs := (row r).zip (row (r + 1))
        finishPower c ((16 * block + r) / 2) (pairs.map fun x => stokesFull x.1 x.2)
          ((row r ++ row (r + 1)).map (judge c.b c.stale c.bad)) s) s
    else rows.foldl (fun s r =>
      finishPower c (16 * block + r) ((row r).map stokesI) ((row r).map (judge c.b c.stale c.bad)) s) s
  else s

/-- The set that a finish channel serves for a slot's block and channel. -/
def finishSet (p : Programme) (ch block chan : Nat) : Option BeamSet :=
  p.beams.find? fun b => b.beams != 0 && b.finishCh == ch && decide (block * 16 < b.beams) && decide (b.chFirst ≤ chan) &&
    decide (chan < b.chFirst + b.chCount)

/-- The finish of a slot of engine `e` for orbit `n`, into the staging buffer at `base`. -/
def finishTransfer (p : Programme) (ch e i n base : Nat) (rs : List Rec32) (s : State) : State :=
  let x := (s.eng e).slot i
  let t := x.tile - 0x3000
  match finishSet p ch (t / 16) x.chan with
  | none => s
  | some b =>
    let key := (b.set * 2 ^ 14 + t) * 2 ^ 16 + x.chan
    let f := tget s.finishes key {}
    let r := if f.frame = n then f.blocks else 0
    let s := { s with finishes := tput s.finishes key { frame := n, blocks := r + 1 } }
    let st := s.beam b.set
    let fresh : StageHold := { orbit := n, packets := b.packets p.n, need := b.finishes p.n, done := 0 }
    let hold := match tfind st.staging (n % 2) with | some h => if h.orbit = n then h else fresh | none => fresh
    let s := s.onBeam b.set fun y =>
      { y with staging := tput y.staging (n % 2) { hold with done := hold.done + 1 }, inUse := n % 2 }
    finishSlot { p := p, b := b, orbit := n, first := 256 * r + 16 * (t % 16), ch := x.chan - b.chFirst, base := base
                 stale := st.stale.contains n, bad := st.bad.contains n } (t / 16) rs s

/-! ### The drain (04 R91; 10 R239, R240) -/

/-- What packet `i` of a drain holds: its first sample and channel offset, its beam offset, the addresses of its records in
packet order, and their size. -/
structure DrainPacket where
  sample : Nat
  ch : Nat
  beam : Nat
  places : List Nat
  size : Nat

/-- Packet `i` of a voltage drain of one or more beams from `src`. -/
def voltagePacket (p : Programme) (b : BeamSet) (src i : Nat) : DrainPacket :=
  let blocks := b.chCount / max 1 b.q
  let per := p.n / max 1 b.m * blocks
  let k := i % max 1 per
  let sample := k / max 1 blocks * b.m
  let ch := k % max 1 blocks * b.q
  let beam := i / max 1 per
  { sample := sample, ch := ch, beam := beam, size := 2
    places := (List.range b.m).flatMap fun t => (List.range b.q).map fun c =>
      src + ((beam * b.chCount + ch + c) * p.n + sample + t) * 2 }

/-- Packet `i` of a power drain from `src`. -/
def powerPacket (p : Programme) (b : BeamSet) (src i : Nat) : DrainPacket :=
  let blocks := b.chCount / max 1 b.q
  let ints := p.n / max 1 b.pInt
  let k := i % max 1 (ints * blocks)
  let interval := k / max 1 blocks
  let ch := k % max 1 blocks * b.q
  let beam := i / max 1 (ints * blocks)
  { sample := interval * b.pInt, ch := ch, beam := beam, size := b.powerSize
    places := (List.range b.q).map fun c => src + ((beam * b.chCount + ch + c) * ints + interval) * b.powerSize }

/-- OVERFLOW, POISONED and MISSING of a power packet's records (04 Table 4.10). -/
def powerFlags (bytes : Bytes) : Nat :=
  let ws := (List.range (bytes.length / 4)).map fun i => fld bytes (4 * i) 4
  b2n (ws.any isInf32) + 2 * b2n (ws.any fun w => w == nan32) + 64 * b2n (ws.any fun w => w == 0xFFFFFFFF)

/-- POISONED and MISSING of a voltage packet's records. -/
def voltageFlags (marks : Tab Nat) (places : List Nat) : Nat :=
  2 * b2n (places.any fun a => tget marks a 0 == 2) + 64 * b2n (places.any fun a => tget marks a 0 == 1)

end Sys2Proof.Machine
end

