-- ==== Sys2Proof/Machine/DmaCore.lean ====
section
/-! DEFINITION. DMA descriptors, channels, chains and their registers, and the host's commands on them (12_dma.md R280 to
R285, R294 to R299). -/

namespace Sys2Proof.Machine

/-! ### Descriptors (12 Tables 12.1 to 12.3) -/

/-- MODE. -/
def dMode (d : Bytes) : Nat := fld d 0 1 % 16
/-- PRIO. -/
def dPrio (d : Bytes) : Nat := bits (fld d 0 1) 5 4
/-- END. -/
def dEnd (d : Bytes) : Bool := bit (fld d 1 1) 0
/-- EVENT. -/
def dEvent (d : Bytes) : Bool := bit (fld d 1 1) 1
/-- PARITY. -/
def dParity (d : Bytes) : Bool := bit (fld d 1 1) 2
/-- CHECK. -/
def dCheck (d : Bytes) : Bool := bit (fld d 1 1) 3
/-- SHARE. -/
def dShare (d : Bytes) : Nat := fld d 2 1
/-- AUX. -/
def dAux (d : Bytes) : Nat := fld d 3 1
/-- LENGTH. -/
def dLength (d : Bytes) : Nat := fld d 4 4
/-- SRC. -/
def dSrc (d : Bytes) : Nat := fld d 8 8
/-- DST. -/
def dDst (d : Bytes) : Nat := fld d 16 8
/-- NEXT. -/
def dNext (d : Bytes) : Nat := fld d 24 4
/-- ODD_DELTA. -/
def dDelta (d : Bytes) : Int := toSigned 32 (fld d 28 4)

/-- SPACE of an address word. -/
def wSpace (w : Nat) : Nat := bits w 63 60

/-- The HBM byte address of a word, moved by ODD_DELTA on odd frames under PARITY (12 Table 12.1). -/
def hbmAddress (d : Bytes) (frame w : Nat) : Nat :=
  if dParity d ∧ frame % 2 = 1 then (((w % 2 ^ 40 : Nat) : Int) + 64 * dDelta d).toNat else w % 2 ^ 40

/-- The engine of a SLOT or LINE word. -/
def wEngine (w : Nat) : Nat := bits w 24 16
/-- The slot of a SLOT word. -/
def wSlot (w : Nat) : Nat := bits w 5 0

/-- KIND of a header seed, the DST of a STREAM descriptor (12 R289). -/
def seedKind (d : Bytes) : Nat := fld d 16 1
/-- The global channel of a header seed. -/
def seedChannel (d : Bytes) : Nat := fld d 17 3
/-- The first record of a header seed; of a beam seed the beam number above M. -/
def seedRecord (d : Bytes) : Nat := fld d 20 3

/-- The KIND of the descriptors that the device builds for CAPTURE_DUMP (07 R167; 12 R280). -/
def captureKind : Nat := 4

/-- Whether a KIND byte names a content and one of its formats (04 Tables 4.7 and 4.9). -/
def kindOk (k : Nat) : Bool :=
  match k % 16 with
  | 1 => decide (k / 16 ≤ 2)
  | 2 => k / 16 == 0
  | 3 => decide (k / 16 ≤ 1)
  | _ => false

/-- Bytes of a record at the source of a STREAM descriptor: a slot's or spill area's 12, or a staged record's (08 R190; 10 R239). -/
def sourceRecord (d : Bytes) : Nat :=
  match seedKind d % 16 with
  | 1 => 12
  | 2 => 2
  | _ => if seedKind d / 16 = 1 then 16 else 4

/-- Whether the fields of a descriptor that moves bytes hold no reserved value: the SPACEs, and a STREAM's seed (12 R282, R289;
04 R92). -/
def reservedClear (d : Bytes) : Bool :=
  decide (wSpace (dSrc d) ≤ 4) &&
    (if dMode d = 6 then kindOk (seedKind d) && dDst d % 256 == 0 else decide (wSpace (dDst d) ≤ 4))

/-- Whether an address word is well formed in its space, for `len` bytes from it (12 Table 12.2). -/
def wordOk (v : Variant) (inline w len : Nat) : Bool :=
  match wSpace w with
  | 0 => bits w 59 40 == 0 && decide (w % 2 ^ 40 + len ≤ hbmCapacity v)
  | 1 => bits w 59 32 == 0
  | 2 => bits w 59 25 == 0 && bits w 15 6 == 0 && decide (wEngine w < enginesOf v) && decide (wSlot w < 42)
  | 3 => bits w 59 25 == 0 && bits w 15 12 == 0 && decide (wEngine w < enginesOf v) && decide (w % 2 ^ 12 < 3072)
  | 4 => bits w 59 16 == 0 && decide (w % 2 ^ 16 + len ≤ inline)
  | _ => false

/-- The spaces that a mode takes at SRC and DST, and whether its LENGTH fits (12 Table 12.3). STREAM has no DST word. -/
def modeOk (d : Bytes) : Bool :=
  let s := wSpace (dSrc d)
  let t := wSpace (dDst d)
  let n := dLength d
  match dMode d with
  | 0 => [0, 1, 4].contains s && [0, 1].contains t && n % 4 == 0
  | 1 => s == 2 && t == 0 && n == 3072
  | 2 => s == 0 && t == 2 && n == 3072
  | 3 => s == 2 && t == 2 && n == 3072
  | 4 => s == 0 && t == 3 && n % 768 == 0
  | 5 => s == 2 && t == 0 && n == 3072
  | 6 => (s == 0 || s == 2) && n % sourceRecord d == 0
  | _ => false

/-- Whether AUX suits the mode. -/
def auxOk (d : Bytes) : Bool :=
  match dMode d with
  | 6 => decide (dAux d < 64)
  | 4 => decide (dAux d < 16)
  | _ => dAux d == 0

/-- The checks of a descriptor against Tables 12.1 to 12.3 (12 R283, R285). -/
def descOk (v : Variant) (inline : Nat) (d : Bytes) : Bool :=
  bits (fld d 0 1) 7 6 == 0 && bits (fld d 1 1) 7 4 == 0 && decide (dMode d ≤ 6) &&
  (dLength d == 0 ||
    (decide (1 ≤ dShare d) && decide (dShare d ≤ 64) && auxOk d && modeOk d && wordOk v inline (dSrc d) (dLength d) &&
      (dMode d == 6 || wordOk v 0 (dDst d) (dLength d)) && reservedClear d))

/-- The checks of a host descriptor (12 R283). -/
def hostDescOk (v : Variant) (inline : Nat) (d : Bytes) : Bool :=
  descOk v inline d && decide (dMode d ≤ 2) && !dParity d && !dCheck d && (dEnd d || decide (dNext d < 4096))

/-- The descriptors of a chain from one on, as their numbers (12 R284). -/
def chainFrom (fuel : Nat) (table : List Bytes) (i : Nat) : List Nat :=
  match fuel with
  | 0 => []
  | fuel + 1 => match table[i]? with
    | some d => i :: (if dEnd d then [] else chainFrom fuel table (dNext d))
    | none => []

/-! ### The descriptors of a dump (07 R167; 12 R280, R287) -/

/-- A packet of a dump: an orbit, its first sample and how many, and the ring channel and path ordinal. -/
structure DumpPacket where
  orbit : Nat
  first : Nat
  count : Nat
  kappa : Nat
  path : Nat

/-- The packets of a dump: by orbit, ring channel, path and sample, each as many samples as EG_PAYLOAD_MAX holds (log entry 40). -/
def DumpJob.packets (j : DumpJob) : List DumpPacket :=
  let l := j.layout
  let per := max 1 (j.payload / max 1 l.z)
  j.orbits.flatMap fun n =>
    (List.range l.chCount).flatMap fun ch => (List.range l.pathCount).flatMap fun q =>
      (List.range ((l.n + per - 1) / per)).map fun i =>
        { orbit := n, first := i * per, count := min per (l.n - i * per), kappa := l.chFirst + ch, path := l.pathFirst + q }

/-- The HBM address of a sample of the capture (07 R159). -/
def dumpAddress (l : CapLayout) (x : DumpPacket) (i : Nat) : Nat :=
  let m := x.orbit * l.n + x.first + i
  runAddress l.base l.pathCount l.depth l.z (x.path - l.pathFirst) (x.kappa - l.chFirst) (m / 256) 0 + m % 256 * l.z

/-- The descriptor that the device builds for packet `i` of a dump: STREAM at PRIO 3 with a share, END on the last. -/
def DumpJob.descriptor (j : DumpJob) (share i : Nat) : Option Bytes :=
  let ps := j.packets
  ps[i]?.map fun x =>
    be 1 (6 + 16 * 3) ++ be 1 (b2n (i + 1 == ps.length)) ++ be 1 share ++ [0] ++ be 4 (x.count * j.layout.z) ++
      be 8 (dumpAddress j.layout x 0) ++ be 1 captureKind ++ be 3 x.kappa ++ be 4 0 ++ be 4 (i + 1) ++ be 4 0

/-! ### Channels (12 R280, R281, R297 to R299) -/

/-- Channel `c`. -/
def State.dch (s : State) (c : Nat) : DmaChannel := tget s.dma.channels c {}
/-- Changes channel `c`. -/
def State.onDch (s : State) (c : Nat) (f : DmaChannel → DmaChannel) : State :=
  { s with dma := { s.dma with channels := tput s.dma.channels c (f (s.dch c)) } }

/-- Sets a bit of a channel's CAUSE and, if it was clear, raises EV_DMA_SUMMARY (12 R298). -/
def dmaCause (c b : Nat) (s : State) : State :=
  if bit (s.dch c).cause b then s
  else
    let s := s.onDch c fun x => { x with cause := setBit x.cause b }
    occur 6 (768 + c) (s.dch c).cause none s

/-- Adds to a counter of R299, in its order; the bytes are a 64-bit counter. -/
def dmaCount (c i k : Nat) (s : State) : State :=
  s.onDch c fun x => { x with counters := tmod x.counters i 0 fun n => satAdd (if i = 2 then 64 else 32) n k }

/-- Whether a programme's acts name channel `c`. -/
def Programme.namesChannel (p : Programme) (c : Nat) : Bool :=
  p.acts.any fun a => (a.kind == 3 || a.kind == 4) && a.dmaCh == c

/-- Whether channel `c` is programme-owned (12 R281). -/
def State.progOwned (s : State) (c : Nat) : Bool := s.heldProgrammes.any fun p => p.namesChannel c

/-- The bytes of host descriptor `i`, in control SRAM (15 Table 15.5). -/
def State.hostDesc (s : State) (i : Nat) : Bytes := memRead 0 s.bus.sram (32 * i) 32

/-- A descriptor that the device builds for an internal channel: PRIO 3, the share of DMA_INT_SHARE, its data INLINE from `off` on, END
on the last (12 R280, R287; log entry 142). -/
def internalDesc (mode share len off dst : Nat) (last : Bool) (next : Nat) : Bytes :=
  be 1 (mode + 16 * 3) ++ be 1 (b2n last) ++ be 1 share ++ [0] ++ be 4 len ++ be 8 (4 * 2 ^ 60 + off % 2 ^ 16) ++ be 8 dst ++
    be 4 next ++ [0, 0, 0, 0]

/-- Channel 62's chain: a COPY for each stretch of the HBM that the data goes to. -/
def loadChain (share : Nat) (pieces : List (Nat × Nat)) : List Bytes :=
  (List.range pieces.length).map fun i =>
    let x := pieces.getD i (0, 0)
    internalDesc 0 share x.2 (sumOf (·.2) (pieces.take i)) x.1 (i + 1 == pieces.length) (i + 1)

/-- The descriptor at an address of the channel's table; channel 61's is built by the device (12 R280, R282). -/
def State.descAt (s : State) (c i : Nat) : Option Bytes :=
  if c = 61 then s.cap.dump.bind fun j => j.descriptor (s.eff 0x0A01) i
  else match (s.dch c).start with
  | none => if i < 4096 then some (s.hostDesc i) else none
  | some st => if st.built.isEmpty then (match s.progGen st.gen with | some p => p.descriptors[i]? | none => none)
    else st.built[i]?

/-- Whether the channel's chain waits for a peripheral request now (12 R292). -/
def DmaChannel.noRequest (x : DmaChannel) : Bool :=
  match x.start with
  | some st => st.trigger && x.reqCount == 0 && !x.level
  | none => false

/-- STATE of Table 12.6. -/
def DmaChannel.stateCode (x : DmaChannel) : Nat := if x.state = 1 ∧ x.noRequest = true then 2 else x.state

/-- The STATUS word (12 Table 12.6). -/
def State.dmaStatus (s : State) (c : Nat) : Nat :=
  let x := s.dch c
  let d := x.desc.getD []
  x.stateCode + 8 * b2n (s.progOwned c || decide (61 ≤ c)) + 16 * dPrio d + 64 * (dShare d % 128) +
    8192 * b2n (x.reqCount != 0 || x.level) + 16384 * b2n x.endLatched + 32768 * (x.reqCount % 256)

/-- REMAIN: the bytes of the held descriptor not yet written. -/
def DmaChannel.remain (x : DmaChannel) : Nat := match x.desc with | some d => dLength d - x.written | none => 0

/-! ### Chains (12 R284, R285, R294) -/

/-- A pending DMA_STOP of the channel completes, with the state reached. -/
def stopDone (c : Nat) (s : State) : State :=
  finishWork (fun w => w == .dmaStop c) .ok (be 1 (s.dch c).stateCode ++ [0] ++ be 2 (s.dch c).current) s

/-- A start takes the channel. -/
def takeStart (c : Nat) (st : DmaStart) (s : State) : State :=
  s.onDch c fun x => { x with state := 1, start := some st, current := st.first, endLatched := false, desc := none
                              stopping := false, cut := false }

/-- A run has ended: the first waiting start begins. Also says whether one did. -/
def nextStart (c : Nat) (s : State) : State × Bool :=
  match (s.dch c).waiting with
  | st :: rest => (takeStart c st (s.onDch c fun x => { x with waiting := rest }), true)
  | [] => (s, false)

/-- The slots of an address word pair. -/
def dSlots (d : Bytes) : List (Nat × Nat) :=
  (if wSpace (dSrc d) = 2 then [(wEngine (dSrc d), wSlot (dSrc d))] else []) ++
  (if wSpace (dDst d) = 2 && dMode d != 6 then [(wEngine (dDst d), wSlot (dDst d))] else [])

/-- A descriptor completes: the boundary (12 R284, R294). Also says whether the channel goes on to fetch. -/
def completeDesc (c : Nat) (s : State) : State × Bool :=
  let x := s.dch c
  match x.desc with
  | none => (s, false)
  | some d =>
    let s := if dLength d = 0 then s else
      (dSlots d).foldl (fun s e => s.onEngSlot e.1 e.2 fun y => if y.busyBy = 2 then { y with busyBy := 0 } else y) s
    let s := dmaCount c 0 1 s
    let s := if x.damaged then dmaCount c 8 1 s else s
    let s := if x.cut then dmaCause c 9 s else s
    let s := s.onDch c fun y => { y with desc := none, readBytes := 0, written := 0, damaged := false, cut := false }
    let s := if dEvent d then dmaCause c 0 s else s
    if x.hbmBad then
      nextStart c (stopDone c (dmaCause c 4 (s.onDch c fun y => { y with state := 6, hbmBad := false, stopping := false })))
    else if dEnd d then
      let s := dmaCause c 2 (s.onDch c fun y => { y with state := 5, endLatched := true, stopping := false })
      nextStart c (stopDone c s)
    else if x.stopping then
      let s := dmaCause c 1 (s.onDch c fun y => { y with state := 4, current := dNext d, stopping := false })
      nextStart c (stopDone c s)
    else (s.onDch c fun y => { y with current := dNext d }, true)

/-- The channel fetches its descriptor; no-op markers complete at once, and a host descriptor that fails its check puts the
channel into ERROR, after which a start that waits begins (12 R281, R283, R285). -/
def fetchDesc (fuel c : Nat) (s : State) : State :=
  match fuel with
  | 0 => s
  | fuel + 1 =>
    let x := s.dch c
    let error := fun s =>
      let (s, more) := nextStart c (stopDone c (dmaCause c 3 (s.onDch c fun y =>
        { y with state := 6, desc := none, stopping := false })))
      if more then fetchDesc fuel c s else s
    match s.descAt c x.current with
    | none => error s
    | some d =>
      if x.start.isNone && !hostDescOk s.fuses.variant (tget s.dma.inline x.current []).length d then error s
      else
        let s := s.onDch c fun y => { y with desc := some d, readBytes := 0, written := 0, readyAt := s.cycle }
        if dLength d = 0 then
          let (s, more) := completeDesc c s
          if more then fetchDesc fuel c s else s
        else s

/-- Descriptors enough for any chain without a loop. -/
def chainFuel : Nat := 4097

/-- A running channel that holds no descriptor, as in a loop of no-op markers, goes on fetching (12 R284, R285). -/
def resumeFetch (c : Nat) (s : State) : State :=
  let x := s.dch c
  if (x.state = 1 ∨ x.state = 3) ∧ x.desc.isNone = true then fetchDesc chainFuel c s else s

/-- A chain is started: at once, or, while a run is in progress, once that has ended, counted as late (11 R262; 12 R281). -/
def startChain (c : Nat) (st : DmaStart) (s : State) : State :=
  let x := s.dch c
  if x.state = 1 ∨ x.state = 3 then
    dmaCause c 8 (dmaCount c 7 1 (s.onDch c fun y => { y with waiting := y.waiting ++ [st] }))
  else fetchDesc chainFuel c (takeStart c st s)

/-- A host chain is started at an address. -/
def startHost (c a : Nat) (s : State) : State :=
  fetchDesc chainFuel c (s.onDch c fun x =>
    { x with state := 1, start := none, current := a, endLatched := false, desc := none, stopping := false })

/-- A programme's channel stops at its descriptor's boundary; a TRIGGER 1 descriptor that waits for a request is retired, at once or
with the last of its bursts in flight. Chains that run a CUT dump go on (12 R295; 11 R275; log entry 164). -/
def cutChannel (c : Nat) (s : State) : State :=
  let x := s.dch c
  let runs := x.state = 1 ∨ x.state = 3
  let cut := match x.start with | some st => st.cut | none => true
  if 60 < c ∨ cut = true ∨ ¬ runs then s
  else
    let s := s.onDch c fun y => { y with state := 3, stopping := true, cut := y.noRequest && y.desc.isSome }
    if x.noRequest ∧ x.inFlight.isEmpty ∧ x.desc.isSome then (completeDesc c s).1 else s

/-! ### The host's commands (12 R281, R283, R294, R296) -/

/-- Writes host descriptors from index `first` on, with the data that their command carries. -/
def writeDescs (first : Nat) (ds : List Bytes) (inline : Bytes) (s : State) : State :=
  let s := { s with bus := { s.bus with sram := memWrite 0 s.bus.sram (32 * first) ds.flatten } }
  { s with dma := { s.dma with inline := (List.range ds.length).foldl (fun t i => tput t (first + i) inline) s.dma.inline } }

/-- DMA_SUBMIT. A running or stopping channel is answered with BAD_STATE where START is set (log entry 26). -/
def dmaSubmit (c : Ctx) (s : State) : Verdict :=
  let ch := fld c.p 0 1
  let flags := fld c.p 1 1
  let first := fld c.p 2 2
  let count := fld c.p 4 2
  let start := fld c.p 6 2
  let inline := c.p.drop (8 + 32 * count)
  let ds := (List.range count).map fun i => slice c.p (8 + 32 * i) 32
  if 60 < ch ∨ 1 < flags ∨ 4096 < first + count ∨ c.p.length < 8 + 32 * count ∨ (flags = 1 ∧ 4095 < start) then
    .no .badParam
  else if !ds.all (hostDescOk s.fuses.variant inline.length) then .no .badParam
  else if s.progOwned ch then .no .badState
  else if flags = 1 ∧ ((s.dch ch).state = 1 ∨ (s.dch ch).state = 3) then .no .badState
  else .done fun s =>
    let s := writeDescs first ds inline s
    let s := if flags = 1 then startHost ch start s else s
    (s, be 2 (s.dch ch).current ++ [0, 0])

/-- END cleared and NEXT set in a descriptor. -/
def linkTo (d : Bytes) (a : Nat) : Bytes :=
  d.take 1 ++ [BitVec.ofNat 8 (fld d 1 1 / 2 * 2)] ++ slice d 2 22 ++ be 4 a ++ d.drop 28

/-- A link with expected tail `e` and new address `a`: 0 CONTINUED, 1 RESTARTED, 2 PATCHED, or none and LINK_REJECTED
(12 Table 12.4). -/
def linkChain (c e a : Nat) (s : State) : State × Option Nat :=
  let x := s.dch c
  let patch := fun s => writeDescs e [linkTo (s.hostDesc e) a] (tget s.dma.inline e []) s
  if 4095 < e ∨ 4095 < a then (dmaCause c 7 s, none)
  else if x.desc.isSome ∧ x.current = e then
    ((patch s).onDch c fun y => { y with desc := y.desc.map fun d => linkTo d a }, some 0)
  else if x.state = 5 ∧ x.current = e then (startHost c a s, some 1)
  else if dEnd (s.hostDesc e) ∧ ¬ (x.state = 6 ∧ x.current = e) then (patch s, some 2)
  else (dmaCause c 7 s, none)

/-- DMA_LINK. -/
def dmaLink (c : Ctx) (s : State) : Verdict :=
  let ch := fld c.p 0 1
  let e := fld c.p 2 2
  let a := fld c.p 4 2
  if 60 < ch ∨ 4095 < e ∨ 4095 < a then .no .badParam
  else if s.progOwned ch then .no .badState
  else match linkChain ch e a s with
    | (_, none) => .rejectWith .badParam fun s => (linkChain ch e a s).1
    | (_, some r) => .done fun s => ((linkChain ch e a s).1, be 1 r ++ [0, 0, 0])

/-- LINK_NEW: a write of `a` links with e = LINK_EXPECT; on a programme-owned or internal channel it is ignored and sets
LINK_REJECTED (12 R297). -/
def execLinkNew (c a : Nat) (s : State) : Host.Outcome State Fault Refusal :=
  .next (if 64 ≤ c ∨ s.ctlLive = false then s
    else if 60 < c ∨ s.progOwned c = true then dmaCause c 7 s
    else (linkChain c (s.dch c).linkExpect a s).1)

/-- DMA_STOP (12 R294). -/
def dmaStop (c : Ctx) (s : State) : Verdict :=
  let ch := fld c.p 0 1
  if 60 < ch then .no .badParam
  else if s.progOwned ch then .no .badState
  else
    let x := s.dch ch
    if x.state = 1 ∨ x.state = 3 then
      .later (.dmaStop ch) (fun s => s.onDch ch fun y => { y with state := 3, stopping := true }) (resumeFetch ch)
    else .answer (be 1 x.stateCode ++ [0] ++ be 2 x.current)

/-- DMA_CAUSE_W1C: the bits written as 1 clear (12 R298). -/
def execDmaCauseW1c (c mask : Nat) (s : State) : Host.Outcome State Fault Refusal :=
  .next (if c < 64 ∧ s.ctlLive = true then s.onDch c fun x => { x with cause := x.cause - (x.cause &&& mask) } else s)

/-- SLOT_WAIT_LONG: after `dt` core cycles a channel's wait on BUSY or on a token has lasted longer than
DMA_STALL_WARN_US (12 R288). -/
def execSlotWaitLong (c dt : Nat) (s : State) : Host.Outcome State Fault Refusal :=
  .next (
    let s := s.advance dt
    match (s.dch c).waitSince with
    | some t =>
      if t + s.eff 0x0A00 * 1000 < s.cycle ∧ (s.dch c).waitLong = false ∧ (s.dch c).waitKind < 2 then
        dmaCause c 6 (s.onDch c fun x => { x with waitLong := true })
      else s
    | none => s)

end Sys2Proof.Machine
end

