-- ==== Sys2Proof/Machine/Sequencer.lean ====
section
/-! DEFINITION. The sequencer's instructions (08_correlation_engines.md R195 to R202, Table 8.8): each is executed by engine
`e`, with its fields as the table names them. -/

namespace Sys2Proof.Machine

/-- NOP. -/
def execNop (e : Nat) (s : State) : Host.Outcome State Fault Refusal := .next (seqStep e (fun g => g) s)

/-- ADD: gd = ga + gb. -/
def execAdd (e d a b : Nat) (s : State) : Host.Outcome State Fault Refusal :=
  .next (seqStep e (fun g => g.setReg d (g.reg a + g.reg b)) s)

/-- SUB: gd = ga - gb. -/
def execSub (e d a b : Nat) (s : State) : Host.Outcome State Fault Refusal :=
  .next (seqStep e (fun g => g.setReg d (ofSigned 24 (g.reg a - g.reg b : Int))) s)

/-- AND: gd = ga AND gb. -/
def execAnd (e d a b : Nat) (s : State) : Host.Outcome State Fault Refusal :=
  .next (seqStep e (fun g => g.setReg d (g.reg a &&& g.reg b)) s)

/-- OR: gd = ga OR gb. -/
def execOr (e d a b : Nat) (s : State) : Host.Outcome State Fault Refusal :=
  .next (seqStep e (fun g => g.setReg d (g.reg a ||| g.reg b)) s)

/-- XOR: gd = ga XOR gb. -/
def execXor (e d a b : Nat) (s : State) : Host.Outcome State Fault Refusal :=
  .next (seqStep e (fun g => g.setReg d (g.reg a ^^^ g.reg b)) s)

/-- SHL: gd = ga shifted left by gb[4:0]; 0 for shifts of 24 to 31. -/
def execShl (e d a b : Nat) (s : State) : Host.Outcome State Fault Refusal :=
  .next (seqStep e (fun g => g.setReg d (g.reg a * 2 ^ (g.reg b % 32))) s)

/-- SHR: gd = ga shifted right by gb[4:0]; 0 for shifts of 24 to 31. -/
def execShr (e d a b : Nat) (s : State) : Host.Outcome State Fault Refusal :=
  .next (seqStep e (fun g => g.setReg d (g.reg a / 2 ^ (g.reg b % 32))) s)

/-- SRA: gd = ga shifted right arithmetically by gb[4:0]; sign fill for shifts of 24 to 31. -/
def execSra (e d a b : Nat) (s : State) : Host.Outcome State Fault Refusal :=
  .next (seqStep e (fun g => g.setReg d (ofSigned 24 (g.sreg a / (2 ^ (g.reg b % 32) : Nat)))) s)

/-- SLT: gd = 1 if ga < gb, signed, else 0. -/
def execSlt (e d a b : Nat) (s : State) : Host.Outcome State Fault Refusal :=
  .next (seqStep e (fun g => g.setReg d (b2n (decide (g.sreg a < g.sreg b)))) s)

/-- ADDI: gd = ga + IMM. -/
def execAddi (e d a : Nat) (imm : Int) (s : State) : Host.Outcome State Fault Refusal :=
  .next (seqStep e (fun g => g.setReg d (ofSigned 24 (g.reg a + imm))) s)

/-- LUI: gd = IMM * 4,096. -/
def execLui (e d imm : Nat) (s : State) : Host.Outcome State Fault Refusal :=
  .next (seqStep e (fun g => g.setReg d (imm % 4096 * 4096)) s)

/-- MUL2: gd = the low 24 bits of ga * gb, g(d+1) = those of ga * gc (08 R197). -/
def execMul2 (e d a b c : Nat) (s : State) : Host.Outcome State Fault Refusal :=
  .next (seqStep e (fun g => (g.setReg d (g.reg a * g.reg b)).setReg (d + 1) (g.reg a * g.reg c)) s)

/-- MULW: the 48-bit signed product ga * gb, its low half to gd and its high half to g(d+1) (08 R197). -/
def execMulw (e d a b : Nat) (s : State) : Host.Outcome State Fault Refusal :=
  .next (seqStep e (fun g =>
    let v := ofSigned 48 (g.sreg a * g.sreg b)
    (g.setReg d v).setReg (d + 1) (v / 2 ^ 24)) s)

/-- MOVAG: ak = gb[15:0]. -/
def execMovag (e k b : Nat) (s : State) : Host.Outcome State Fault Refusal :=
  .next (seqStep e (fun g => { g with a := tput g.a k (g.reg b % 2 ^ 16) }) s)

/-- MOVGA: gd = eff(k). -/
def execMovga (e d k : Nat) (s : State) : Host.Outcome State Fault Refusal :=
  .next (seqStep e (fun g => g.setReg d (g.effAddr k)) s)

/-- ADDA: advance(k, IMM). -/
def execAdda (e k : Nat) (imm : Int) (s : State) : Host.Outcome State Fault Refusal :=
  .next (seqStep e (fun g => g.advanceAddr k imm) s)

/-- SETC: cbk = gb[15:0], clk = gc[15:0], ak = cbk; feed ring k is reset (08 R188). -/
def execSetc (e k b c : Nat) (s : State) : Host.Outcome State Fault Refusal :=
  .next (seqStep e (fun g =>
    let base := g.reg b % 2 ^ 16
    { g with cb := tput g.cb k base, cl := tput g.cl k (g.reg c % 2 ^ 16), a := tput g.a k base
             rings := tput g.rings k {} }) s)

/-- LDC: gd = bits [23:0] of constant word (eff(k) + IMM) mod 1,024. -/
def execLdc (e d k imm : Nat) (s : State) : Host.Outcome State Fault Refusal :=
  .next (seqStep e (fun g => g.setReg d (tget g.consts ((g.effAddr k + imm) % 1024) 0)) s)

/-- STC: constant word (eff(k) + IMM) mod 1,024 = gb, zero-extended. -/
def execStc (e k b imm : Nat) (s : State) : Host.Outcome State Fault Refusal :=
  .next (seqStep e (fun g => { g with consts := tput g.consts ((g.effAddr k + imm) % 1024) (g.reg b) }) s)

/-- RDLC: gd = lcL, the iterations still to run, counting the current one. -/
def execRdlc (e d l : Nat) (s : State) : Host.Outcome State Fault Refusal :=
  .next (seqStep e (fun g => g.setReg d (tget g.lc l 0)) s)

/-- BR: branch, two delay slots (08 R200). -/
def execBr (e target : Nat) (s : State) : Host.Outcome State Fault Refusal :=
  .next (seqControl e (fun g => g.branch true target) s)

/-- BZ: branch if gg = 0. -/
def execBz (e r target : Nat) (s : State) : Host.Outcome State Fault Refusal :=
  .next (seqControl e (fun g => g.branch (g.reg r == 0) target) s)

/-- BNZ: branch if gg is not 0. -/
def execBnz (e r target : Nat) (s : State) : Host.Outcome State Fault Refusal :=
  .next (seqControl e (fun g => g.branch (g.reg r != 0) target) s)

/-- BLTZ: branch if gg < 0, signed. -/
def execBltz (e r target : Nat) (s : State) : Host.Outcome State Fault Refusal :=
  .next (seqControl e (fun g => g.branch (decide (g.sreg r < 0)) target) s)

/-- BGEZ: branch if gg >= 0, signed. -/
def execBgez (e r target : Nat) (s : State) : Host.Outcome State Fault Refusal :=
  .next (seqControl e (fun g => g.branch (decide (0 ≤ g.sreg r)) target) s)

/-- JAL: g15 = pc + 3, and branch. -/
def execJal (e target : Nat) (s : State) : Host.Outcome State Fault Refusal :=
  .next (seqControl e (fun g => (g.setReg 15 (g.pc + 3)).branch true target) s)

/-- JR: branch to gg[11:0]. -/
def execJr (e r : Nat) (s : State) : Host.Outcome State Fault Refusal :=
  .next (seqControl e (fun g => g.branch true (g.reg r)) s)

/-- REPEAT: the LEN instructions that follow run COUNT times (08 R200). -/
def execRepeat (e l len count : Nat) (s : State) : Host.Outcome State Fault Refusal :=
  .next (seqControl e (fun g => g.repeat' l len count) s)

/-- REPEATG: as REPEAT with COUNT = gg[15:0]. -/
def execRepeatg (e l len r : Nat) (s : State) : Host.Outcome State Fault Refusal :=
  .next (seqControl e (fun g => g.repeat' l len (g.reg r % 2 ^ 16)) s)

/-- WAITF: stall until the fill of ring k is at least min(N, clk). -/
def execWaitf (e k n : Nat) (s : State) : Host.Outcome State Fault Refusal := .next (seqStall e (.waitf k n) s)

/-- FREEF: once every pass issued earlier has finished streaming, the fill of ring k falls by min(N, fill). -/
def execFreef (e k n : Nat) (s : State) : Host.Outcome State Fault Refusal :=
  .next (seqStep e (fun g =>
    if g.issued ≤ g.streamed then freeRing g k n else { g with frees := g.frees ++ [(g.issued, k, n)] }) s)

/-- PSYNC: stall until the pass queue is empty and every write-back is complete. -/
def execPsync (e : Nat) (s : State) : Host.Outcome State Fault Refusal := .next (seqStall e .psync s)

/-- TACQ: bind a slot to tile ggt[13:0] and channel ggc[15:0], with `h` once the tile's token is DELIVERED (08 R194). -/
def execTacq (e slot gt gc : Nat) (h : Bool) (s : State) : Host.Outcome State Fault Refusal :=
  .next (seqStall e (.tacq slot gt gc h) s)

/-- TREL: release a slot and set its tile's token to RELEASED; a scratchpad word may fail parity in a bit (09 R226). -/
def execTrel (e slot : Nat) (bad : Option Nat) (s : State) : Host.Outcome State Fault Refusal :=
  .next (seqStall e (.trel slot bad) s)

/-- TCLR: clear a slot's records and flags. -/
def execTclr (e slot : Nat) (s : State) : Host.Outcome State Fault Refusal := .next (seqStall e (.tclr slot) s)

/-- PASS: issue a correlation pass (08 R199). -/
def execPass (e kr kc slot gs : Nat) (real ir ic : Bool) (s : State) : Host.Outcome State Fault Refusal :=
  .next (seqStall e (.pass kr kc slot gs real ir ic) s)

/-- BLOAD: load the beam weights; a weight line may fail parity in a bit (10 R232, R243). -/
def execBload (e k : Nat) (iw : Bool) (bad : Option Nat) (s : State) : Host.Outcome State Fault Refusal :=
  .next (seqStall e (.bload k iw bad) s)

/-- BPASS: issue a beam pass over one granule (10 R233). -/
def execBpass (e kc slot : Nat) (ic : Bool) (s : State) : Host.Outcome State Fault Refusal :=
  .next (seqStall e (.bpass kc slot ic) s)

/-- DKICK: raise one peripheral request of a DMA channel; at a count of 255 the engine stalls (12 R292). -/
def execDkick (e ch : Nat) (s : State) : Host.Outcome State Fault Refusal := .next (seqStall e (.dkick ch) s)

end Sys2Proof.Machine
end

