-- ==== Sys2Proof/Machine/Acts.lean ====
section
/-! DEFINITION. The act boundary and the acts that fall due, the programme swap, the retiring tail and halts
(11_programmes.md R261 to R263, R268 to R276). -/

namespace Sys2Proof.Machine

/-! ### The swap (11 R270; 06 R138; 07 R158) -/

/-- The Midway half-ports that are UP against the peers that the programme taking effect expects; one in electrical idle is held
against them as it leaves it (06 R138). -/
def checkPeers (p : Programme) (s : State) : State :=
  (List.range (halfPortsOf s.fuses.variant)).foldl (fun s h =>
    if (s.hp h).state != .up || (s.hp h).mw.partner.isNone then s else holdPeer (some p) h s) s

/-- The regions of a programme taking effect that are not carried over: their contents are undefined (07 R158), but for the
maps, which start clear, and the ring's directory, which starts FREE, so that stale contents are never delivered (07 R164; log
entry 27). -/
def freshRegions (old : Option Programme) (p : Programme) (s : State) : State :=
  let kept := fun (r : ProgRegion) => match old with | some o => o.regions.contains r | none => false
  p.regions.foldl (fun s r =>
    if kept r || r.size == 0 then s
    else
      let rest := s.hbm.undef.flatMap (·.cut r.base r.size)
      let clear := { s with free := s.free + 1, hbm := { s.hbm with
        mem := s.hbm.mem.filter fun c => !(decide (r.base ≤ c.1) && decide (c.1 < r.base + r.size))
        undef := if r.kind == 2 || r.kind == 6 then rest
          else { first := r.base, past := r.base + r.size, draw := s.free } :: rest } }
      if r.kind == 1 then { clear with ct := { s.ct with dir := tdel s.ct.dir (r.base / 2 ^ 15) } } else clear) s

/-- Host chains still running on channels that the programme owns stop at their next boundary (12 R281). -/
def stopHostChains (p : Programme) (s : State) : State :=
  (List.range 61).foldl (fun s c =>
    let x := s.dch c
    if p.namesChannel c && x.start.isNone && (x.state == 1 || x.state == 3) then
      s.onDch c fun y => { y with state := 3, stopping := true }
    else s) s

/-- The last frame of the tail window after a swap at `n` (11 R272). -/
def tailEndOf (p : Programme) (n : Nat) : Nat := if p.corr.isSome then (n / p.nInt + 1) * p.nInt - 1 else n

/-- What a link keeps of the orbits before `n` (06 R143, R144). -/
def MwLink.linkBefore (n : Nat) (m : MwLink) : MwLink :=
  { m with segNext := m.segNext.filter fun e => decide (e.1 / 2 ^ 19 < n), discarded := m.discarded.filter fun k => decide (k < n)
           closeDue := m.closeDue.filter fun e => decide (e.1 < n) }

/-- A programme of a generation takes effect at orbit `n` with none in effect: the orbits that a halted programme left open at
ingest close, and ingest, the stages, the frames and the acts go on at `n`; the marks of orbits from `n` on, and what the
corner turn counted of a programme that is gone or of the same generation, are those of an earlier run and go (11 R268, R275;
log entry 46). -/
def startAfresh (n gen : Nat) (s : State) : State :=
  let s := match s.orb.oldest with
    | some o => match lastWhere (fun k => decide (k < n) && (s.progAt k).isSome) o 4 with
      | some k => closeOrbits k false s
      | none => s
    | none => s
  let s := stagesAfresh n s
  { s with
    ing := { s.ing with paths := s.ing.paths.map fun (x : Nat × IngestPath) => (x.1, { x.2 with granules := [] }) }
    orb := { s.orb with oldest := some n
                        byDeadline := s.orb.byDeadline.filter fun k => decide (k < n) }
    ct := { s.ct with
      deadlineFrames := s.ct.deadlineFrames.filter fun k => decide (k < n)
      accepted := s.ct.accepted.filter fun e => (s.progGen e.1).isSome && e.1 != gen
      valid := s.ct.valid.filter fun e => (s.progGen e.1).isSome && e.1 != gen
      closes := s.ct.closes.filter fun e => decide (e.1 < n)
      frame := some (match s.ct.frame with | some f => if f < n ∧ (s.progAt f).isSome then f else n | none => n) }
    beams := s.beams.map fun (x : Nat × BeamState) =>
      (x.1, { x.2 with stale := [], bad := [], clips := [], terms := [], staging := [], sent := [], weightBytes := [] })
    finishes := []
    powers := []
    hps := s.hps.map fun (h : Nat × HalfPort) => (h.1, { h.2 with mw := h.2.mw.linkBefore n })
    prg := { s.prg with frame := match s.prg.frame with | some f => if f < n then some f else none | none => none } }

/-- The ARMED slot takes effect; the slot in effect retires. -/
def swapNow (i : Nat) (s : State) : State :=
  let x := s.slot i
  match x.prog with
  | none => s
  | some p =>
    let n := x.swapOrbit
    let old := s.inEffect
    let s := if old.isNone then startAfresh n p.generation s else s
    let s := match s.slotIn .inEffect with
      | some j => s.onSlot j fun y =>
          { y with state := .retiring, endOrbit := some n, haltOrbit := none, haltDump := false, tailEnd := match y.prog with | some q => tailEndOf q n | none => n }
      | none => s
    let s := s.settleBuckets.onSlot i fun y =>
      { y with state := .inEffect, fresh := old.isNone, slip := 0, lateActs := 0, run := s.prg.runs + 1 }
    let s := { s with prg := { s.prg with runs := s.prg.runs + 1 } }
    let s := freshRegions old p s
    let s := { s with orb := { s.orb with oldest := some (s.orb.oldest.getD n), noDeadlineRaised := false, frontier := none }
                      ct := { s.ct with frame := some (s.ct.frame.getD n) } }
    let s := raise 1004 (stopHostChains p s)
    let s := match old with
      | some o => if resetsHistory o p then raise 991 s else s
      | none => s
    noDeadlineCheck (openOrbits (checkPeers p s))

/-- The programme in effect ends at its halt orbit, as a swap to nothing (11 R275). -/
def haltNow (j : Nat) (n : Nat) (s : State) : State :=
  raise 1006 (s.settleBuckets.onSlot j fun y =>
    { y with state := .retiring, endOrbit := some n, tailAt := n
             tailEnd := match y.prog with | some q => tailEndOf q n | none => n })

/-- Whether stage A may have reached orbit `n`: it lies among the orbits open at ingest, or none is in effect (02 R40). -/
def State.mayReach (s : State) (n : Nat) : Bool := match s.orb.oldest with | some o => decide (n ≤ o + 3) | none => true

/-- The first stage reaches the swap or halt orbit, whichever comes first. -/
def programmeSwap (s : State) : State :=
  let swap := (s.slotIn .armed).map fun i => (i, (s.slot i).swapOrbit)
  match s.slotIn .inEffect with
  | some j =>
    match (s.slot j).haltOrbit, swap with
    | some n, some (i, m) =>
      if m ≤ n then (if s.mayReach m then swapNow i s else s) else if s.mayReach n then haltNow j n s else s
    | some n, none => if s.mayReach n then haltNow j n s else s
    | none, some (i, m) => if s.mayReach m then swapNow i s else s
    | none, none => s
  | none => match swap with
    | some (i, _) => swapNow i s
    | none => s

/-- PROGRAMME_SWAP (11 R270). -/
def execProgrammeSwap (s : State) : Host.Outcome State Fault Refusal := .next (if s.coreLive then programmeSwap s else s)

/-! ### The act set of a frame (11 R261, R262, R272) -/

/-- ONCE of an act. -/
def Act.once (a : Act) : Bool := bit a.flags 0
/-- EVERY_ORBIT of an act. -/
def Act.everyOrbit (a : Act) : Bool := bit a.flags 1
/-- TAIL of an act. -/
def Act.tail (a : Act) : Bool := bit a.flags 2

/-- The first orbit after the integration, or orbit, that a TAIL act drains at frame `n`. -/
def Act.tailBefore (a : Act) (nInt n : Nat) : Nat := if a.everyOrbit then n else n / nInt * nInt

/-- Whether a programme's own act is due at frame `n`, its first frame being `first` (11 R262, R272). -/
def actDue (p : Programme) (first n : Nat) (a : Act) : Bool :=
  if a.tail && decide (a.tailBefore p.nInt n ≤ first) then false
  else if a.once then n == first
  else a.everyOrbit || a.phase == n % p.nInt

/-- Whether a retiring programme's TAIL act is due at frame `n`: what it drains ends while the programme owned orbits, from `first`
until `stop` (11 R272). -/
def tailDue (p : Programme) (first stop n : Nat) (a : Act) : Bool :=
  a.tail && decide (first < a.tailBefore p.nInt n) && decide (a.tailBefore p.nInt n ≤ stop) &&
    (a.everyOrbit || a.phase == n % p.nInt)

/-- The HANDOVER descriptors that the device builds (12 R288). -/
def handoverDescs (hs : List Handover) : List Bytes :=
  (List.range hs.length).zip hs |>.map fun x =>
    let word := fun e i => be 8 (2 * 2 ^ 60 + e * 2 ^ 16 + i)
    [3, if x.1 + 1 = hs.length then 1 else 0, 64, 0] ++ be 4 3072 ++ word x.2.srcEngine x.2.srcSlot ++
      word x.2.dstEngine x.2.dstSlot ++ be 4 (x.1 + 1) ++ [0, 0, 0, 0]

/-- An ENGINE act falls due on its engines (11 R262, R263). -/
def dueOnEngines (p : Programme) (n i : Nat) (a : Act) (busy : List Nat) (s : State) : State :=
  ((List.range a.count).map (a.first + ·)).foldl (fun s e =>
    if e < enginesOf s.fuses.variant then
      s.onEng e fun g => { g with due := g.due ++ [{ gen := p.generation, frame := n, act := some i
                                                     late := if busy.contains e then some s.cycle else none }] }
    else s) s

/-- An act of a frame starts (11 R262). -/
def startAct (p : Programme) (n : Nat) (busy : List Nat) (s : State) (x : Nat × Act) : State :=
  let a := x.2
  let st : DmaStart := { gen := p.generation, frame := n, act := x.1, first := 0, trigger := false, built := [], cut := false }
  match a.kind with
  | 1 => dueOnEngines p n x.1 a busy s
  | 2 => match p.schedules.find? fun q => q.1 == a.ref with
    | some q =>
      let run := ({ gen := p.generation, frame := n, act := x.1, entries := q.2 } : ReadRun).trim
      if run.entries.isEmpty then s else { s with car := { s.car with runs := s.car.runs ++ [run] } }
    | none => s
  | 3 => match p.chains[a.ref]? with
    | some ch => if ch.2 = 0 then s else startChain a.dmaCh { st with first := ch.1, trigger := a.trigger == 1 } s
    | none => s
  | _ =>
    let built := handoverDescs ((p.handovers.drop a.first).take a.count)
    if built.isEmpty then s else startChain a.dmaCh { st with built := built } s

/-- The acts of a list with their record numbers, ONCE acts of engines ahead of the others (11 R262). -/
def dueActs (p : Programme) (due : Act → Bool) : List (Nat × Act) :=
  let all := ((List.range p.acts.length).zip p.acts).filter fun x => due x.2
  all.filter (fun x => x.2.kind == 1 && x.2.once) ++ all.filter fun x => !(x.2.kind == 1 && x.2.once)

/-- At its first frame a programme's switch falls due on every engine (11 R270, R271); an engine that a halt stopped
switches from where it stands. -/
def switchDue (p : Programme) (n : Nat) (s : State) : State :=
  let v := enginesOf s.fuses.variant
  let s := (p.codes.map (·.engine)).foldl (fun s e =>
    if thas s.engines e || decide (v ≤ e) then s else s.onEng e fun g => g) s
  { s with engines := s.engines.map fun x =>
      (x.1, { x.2 with waito := x.2.waito || x.2.halted
                       due := x.2.due ++ [{ gen := p.generation, frame := n, act := none, late := none }] }) }

/-- Every engine that waits takes what is due. -/
def takeAll (s : State) : State := (s.engines.map (·.1)).foldl (fun s e => takeDue ((s.eng e).due.length + 1) e s) s

/-- Engines that are still in an act, or have one due. -/
def busyEngines (s : State) : List Nat :=
  (s.engines.filter fun x => !x.2.halted && ((x.2.loaded && !x.2.waito) || !x.2.due.isEmpty)).map (·.1)

/-- The TAIL acts of a retiring slot at frame `n`. -/
def startTail (n : Nat) (busy : List Nat) (s : State) (j : Nat) : State :=
  match (s.slot j).prog, (s.slot j).endOrbit with
  | some q, some stop => (dueActs q (tailDue q (s.slot j).swapOrbit stop n)).foldl (startAct q n busy) s
  | _, _ => s

/-- The RETIRING slots left by a swap. -/
def swappedOut (s : State) : List Nat :=
  (List.range 3).filter fun j => (s.slot j).state == .retiring && (s.slot j).haltOrbit.isNone && !(s.slot j).haltedAtOnce

/-- The reader begins frame `n` of a programme (11 R262). The TAIL acts of retiring programmes come before the programme's switch at its
first frame, so that they find their own code (log entry 137). -/
def beginFrame (i : Nat) (p : Programme) (n : Nat) (s : State) : State :=
  let first := (s.slot i).swapOrbit
  let busy := busyEngines s
  let tails := (swappedOut s).filter (· != i)
  let s := s.onSlot i fun y => { y with lastFrame := some n, slip := if n % p.nInt = 0 then 0 else y.slip }
  let s := { s with prg := { s.prg with frame := some n } }
  let s := coarseLimits p n s
  let s := p.beams.foldl (fun s b => s.onBeam b.set fun x =>
    { x with terms := tput (x.terms.filter fun t => decide (n < t.1 + 4)) n (s.eff 0x0900, s.eff 0x0901)
             lastRead := if n = first then none else x.lastRead }) s
  let s := tails.foldl (startTail n busy) s
  let s := if n = first then takeAll (switchDue p n s) else s
  releaseRead (takeAll ((dueActs p (actDue p first n)).foldl (startAct p n busy) s))

/-- The next frame of a slot, if the slot's programme owns it and has taken effect. -/
def State.frameOf (s : State) (i : Nat) : Option Nat :=
  let x := s.slot i
  let n := match x.lastFrame with | some f => f + 1 | none => x.swapOrbit
  if s.slotAt n = some i ∧ x.state ≠ .armed then some n else none

/-- The frame that the reader takes next: the frames of retiring programmes come first. -/
def State.nextFrame (s : State) : Option Nat :=
  let old := ((List.range 3).filter fun i => (s.slot i).state == .retiring).filterMap s.frameOf
  match old with
  | n :: rest => some (rest.foldl min n)
  | [] => (s.slotIn .inEffect).bind s.frameOf

/-- The slot of a programme halted at an orbit whose tail window is still open: a swap to nothing, whose frames follow one another
(11 R272, R275; log entry 138). -/
def haltTail (s : State) : Option Nat :=
  (List.range 3).find? fun j =>
    let x := s.slot j
    x.state == .retiring && x.haltOrbit.isSome && !x.haltedAtOnce && (s.frameOf j).isNone && decide (x.tailAt ≤ x.tailEnd)

/-- A frame of that window: only TAIL acts run. -/
def tailFrame (j : Nat) (s : State) : State :=
  let n := (s.slot j).tailAt
  let busy := busyEngines s
  let s := (j :: swappedOut s).foldl (startTail n busy) s
  takeAll (s.onSlot j fun y => { y with tailAt := n + 1 })

/-- ACT_BOUNDARY: the reader, done with the frame before, begins the next, if it has closed and stage B has delivered it;
otherwise the stall is counted (07 R164, 11 R262). -/
def execActBoundary (s : State) : Host.Outcome State Fault Refusal :=
  .next (
    if !s.coreLive || s.hbm.state != 0 || !s.car.runs.isEmpty then s
    else match haltTail s with
      | some j => tailFrame j s
      | none => match s.nextFrame with
        | none => s
        | some n => match s.slotAt n with
          | none => s
          | some i => match (s.slot i).prog with
            | none => s
            | some p =>
              if frameReadable s p n then beginFrame i p n s
              else { s with ct := { s.ct with stalls := satInc 32 s.ct.stalls } })

/-! ### Halts and retirement (11 R272, R275, R276) -/

/-- The channel on which a CUT chain runs: that of the programme's TAIL transfer, else of its first transfer (log entry
28). -/
def cutChannelOf (p : Programme) : Nat :=
  match p.acts.find? fun a => a.kind == 3 && a.tail with
  | some a => a.dmaCh
  | none => match p.acts.find? fun a => a.kind == 3 with | some a => a.dmaCh | none => 0

/-- Starts the CUT chain of the integration in progress, whose last whole orbit is `n` (11 R276). -/
def startCut (p : Programme) (n : Nat) (s : State) : State :=
  match p.corr with
  | some c => match c.cuts[n % p.nInt]? with
    | some ch => match p.chains[ch]? with
      | some x => startChain (cutChannelOf p)
          { gen := p.generation, frame := n, act := p.acts.length, first := x.1, trigger := false, built := [], cut := true } s
      | none => s
    | none => s
  | none => s

/-- Whether the engines of a generation have ended their acts, those that are late included (11 R263); the act of an engine that
STORE_PARITY has stopped never completes (08 R203). -/
def enginesDone (s : State) (gen : Nat) : Bool :=
  s.engines.all fun x => x.2.halted || x.2.fault || ((x.2.gen != gen || !x.2.loaded || x.2.waito) && x.2.due.all fun d => d.gen != gen)

/-- A halt at an orbit with DUMP: once the last frame's acts have ended, the CUT chain starts. -/
def cutDue (s : State) : State :=
  match (List.range 3).find? fun j => (s.slot j).state == .retiring && (s.slot j).haltDump with
  | some j =>
    match (s.slot j).prog, (s.slot j).haltOrbit with
    | some p, some n =>
      if (s.frameOf j).isNone && s.car.runs.isEmpty && enginesDone s p.generation then
        startCut p (n - 1) (s.onSlot j fun y => { y with haltDump := false })
      else s
    | _, _ => s
  | none => s

/-- WAITO: end of the act (08 R202). -/
def execWaito (e : Nat) (s : State) : Host.Outcome State Fault Refusal := .next (cutDue (waito e s))

/-- Whether every chain of a generation is idle. -/
def chainsIdle (s : State) (gen : Nat) : Bool :=
  s.dma.channels.all fun x => decide (60 < x.1) ||
    ((match x.2.start with | some st => st.gen != gen | none => true) || (x.2.state != 1 && x.2.state != 3)) &&
    x.2.waiting.all fun st => st.gen != gen

/-- Whether the tail window of a RETIRING slot has ended: after a swap with a frame past it, after a halt with its own frames. -/
def windowEnded (s : State) (j : Nat) : Bool :=
  let x := s.slot j
  x.haltedAtOnce || ((s.frameOf j).isNone && s.car.runs.isEmpty && !x.haltDump &&
    if x.haltOrbit.isSome then decide (x.tailEnd < x.tailAt)
    else (match s.prg.frame with | some f => decide (x.tailEnd < f) | none => false) ||
      (List.range 3).any fun k => (s.slot k).haltOrbit.isSome && decide (x.tailEnd < (s.slot k).tailAt))

/-- Whether nothing of a generation is still to be done: its acts, late ones included, its chains and its replays (11 R263, R272). -/
def generationDone (s : State) (gen : Nat) : Bool :=
  enginesDone s gen && chainsIdle s gen && (pendingReplays s).all fun b => b.gen != gen

/-- PROGRAMME_RETIRED: the tail window has ended and every old act and chain is done (11 R272). -/
def execProgrammeRetired (s : State) : Host.Outcome State Fault Refusal :=
  .next (
    let s := cutDue s
    match (List.range 3).find? fun j => (s.slot j).state == .retiring && windowEnded s j && generationDone s (s.slot j).generation with
    | some j =>
      let gen := (s.slot j).generation
      let s := s.onSlot j fun _ => {}
      raise 1005 { s with prg := { s.prg with segments := s.prg.segments.filter fun g => g.generation != gen } }
    | none => s)

/-- Whether a halt before orbit `n` with DUMP is allowed (11 R276). -/
def dumpOk (p : Programme) (n : Nat) : Bool :=
  n % p.nInt == 0 || (match p.corr with | some c => !c.cuts.isEmpty | none => false)

/-- HALT_PROGRAMME AT_ONCE of the slot in effect: every engine, the reader, the acts, those of older programmes' tails among them, and
ingest placement stop (11 R275, 12 R295). -/
def haltAtOnce (j : Nat) (p : Programme) (dump : Bool) (s : State) : State :=
  let s := { s with
    engines := s.engines.map fun (x : Nat × Engine) => (x.1, { x.2 with halted := true, due := [] })
    car := { s.car with runs := [], root := none, heldSince := none, heldBy := [] }
    orb := { s.orb with oldest := none, terms := [] }
    ct := { s.ct with frame := none, closes := [] }
    hps := s.hps.map fun (h : Nat × HalfPort) => (h.1, { h.2 with mw := { h.2.mw.linkBefore 0 with building := [] } }) }
  let s := (List.range 3).foldl (fun s k => if k = j ∨ (s.slot k).state = .retiring then
      s.onSlot k fun y => { y with state := .retiring, haltedAtOnce := true, haltDump := false } else s) s.settleBuckets
  let s := (List.range 61).foldl (fun s c =>
    if thas s.dma.channels c then cutChannel c (s.onDch c fun y => { y with waiting := [] }) else s) s
  let s := if dump then (match s.prg.frame with | some (f + 1) => startCut p f s | _ => s) else s
  raise 1006 s

/-- HALT_PROGRAMME, with and without AT_ONCE (11 R275, R276). -/
def haltProgramme (c : Ctx) (s : State) : Verdict :=
  let i := fld c.p 0 1
  let flags := fld c.p 1 1
  let n := fld c.p 4 8
  let x := s.slot i
  if 2 < i ∨ 3 < flags ∨ fld c.p 2 2 ≠ 0 then .no .badParam
  else match x.state, x.prog with
    | .armed, _ => .did fun s => s.onSlot i fun y => { y with state := .valid }
    | .inEffect, some p =>
      if flags % 2 = 1 then
        if flags = 3 ∧ dumpOk p (s.prg.frame.getD 0) = false then .no .badParam else .did (haltAtOnce i p (flags == 3))
      else
        let armed := match s.slotIn .armed with | some k => decide ((s.slot k).swapOrbit ≤ n) | none => false
        let near := match s.orb.oldest with | some o => decide (n < o + 4) | none => false
        if armed || near || (flags == 2 && !dumpOk p n) then .no .badParam
        else .did fun s =>
          let s := match s.slotIn .armed with
            | some k => s.onSlot k fun y => { y with state := .valid }
            | none => s
          s.onSlot i fun y => { y with haltOrbit := some n, haltDump := flags == 2 }
    | _, _ => .no .badState

end Sys2Proof.Machine
end

