-- ==== Sys2Proof/Machine/CodeFlow.lean ====
section
/-! DEFINITION. What validation knows of engine code: encodings and control flow, the constants that reach each word, and the passes
that an act can have in flight (08_correlation_engines.md R193, R196, R198, R200; 10 R235, R238, R241; 11 R273). -/

namespace Sys2Proof.Machine

/-! ### Words (08 R198, R200) -/

/-- The opcode of an instruction word. -/
def wOp (w : Nat) : Nat := bits w 31 26

/-- The bits that an opcode's fields name, below the opcode; none for a reserved opcode (08 Table 8.8). -/
def opMask (op : Nat) : Option Nat :=
  match op with
  | 0x00 | 0x26 | 0x27 => some 0
  | 0x01 | 0x02 | 0x03 | 0x04 | 0x05 | 0x06 | 0x07 | 0x08 | 0x09 | 0x0D => some 0x03FFC000
  | 0x0A => some 0x03FFFFFF
  | 0x0B => some 0x03C00FFF
  | 0x0C => some 0x03FFFC00
  | 0x10 => some 0x0383C000
  | 0x11 => some 0x03F80000
  | 0x12 => some 0x0380FFFF
  | 0x13 => some 0x0383FC00
  | 0x14 => some 0x03F80FFF
  | 0x15 => some 0x003BCFFF
  | 0x16 => some 0x03E00000
  | 0x18 | 0x1D => some 0x00000FFF
  | 0x19 | 0x1A | 0x1B | 0x1C => some 0x03C00FFF
  | 0x1E => some 0x03C00000
  | 0x20 => some 0x03F8FFFF
  | 0x21 => some 0x03FBC000
  | 0x24 | 0x25 => some 0x03800FFF
  | 0x28 => some 0x03FFF800
  | 0x29 | 0x2A => some 0x03F00000
  | 0x2C => some 0x03FFFF80
  | 0x2D => some 0x03800100
  | 0x2E => some 0x007FC080
  | 0x2F => some 0x0000003F
  | _ => none

/-- Whether a word encodes an instruction (08 R198). -/
def wordEncodes (w : Nat) : Bool :=
  match opMask (wOp w) with
  | some m => (w % 2 ^ 26 &&& m) == w % 2 ^ 26 && !((wOp w == 0x0C || wOp w == 0x0D) && bit w 22)
  | none => false

/-- A branch, JAL or JR. -/
def isBranch (w : Nat) : Bool := decide (0x18 ≤ wOp w) && decide (wOp w ≤ 0x1E)
/-- A branch with a condition. -/
def isConditional (w : Nat) : Bool := decide (0x19 ≤ wOp w) && decide (wOp w ≤ 0x1C)
/-- REPEAT or REPEATG. -/
def isRepeat (w : Nat) : Bool := wOp w == 0x20 || wOp w == 0x21
/-- WAITO. -/
def isWaito (w : Nat) : Bool := wOp w == 0x26
/-- PASS or BPASS. -/
def isPass (w : Nat) : Bool := wOp w == 0x2C || wOp w == 0x2E
/-- The slot of PASS or BPASS. -/
def passSlot (w : Nat) : Nat := bits w 19 14
/-- The slot of TACQ, TREL or TCLR. -/
def tileSlot (w : Nat) : Nat := bits w 25 20
/-- LEN of a REPEAT. -/
def repLen (w : Nat) : Nat := bits w 24 19

/-- The words that follow address `i`, `n` of them. -/
def body (ws : List Nat) (i n : Nat) : List Nat := (ws.drop (i + 1)).take n

/-! ### Constants (08 R195, Table 8.8) -/

/-- What is known of the general registers: those that hold a constant. -/
abbrev Known := Tab Nat

/-- The result of an operation on ga and gb with constant operands (08 Table 8.8). -/
def aluValue (op a b : Nat) : Nat :=
  let sa := toSigned 24 a
  match op with
  | 0x01 => (a + b) % 2 ^ 24
  | 0x02 => ofSigned 24 ((a : Int) - b)
  | 0x03 => a &&& b
  | 0x04 => a ||| b
  | 0x05 => a ^^^ b
  | 0x06 => a * 2 ^ (b % 32) % 2 ^ 24
  | 0x07 => a / 2 ^ (b % 32)
  | 0x08 => ofSigned 24 (sa / (2 ^ (b % 32) : Nat))
  | _ => b2n (decide (sa < toSigned 24 b))

/-- A register takes a value, known or not. -/
def Known.set (k : Known) (d : Nat) (v : Option Nat) : Known :=
  match v with
  | some v => tput k d v
  | none => tdel k d

/-- A function of two registers, where both are known. -/
def Known.both (k : Known) (a b : Nat) (f : Nat → Nat → Nat) : Option Nat :=
  (tfind k a).bind fun x => (tfind k b).map (f x)

/-- What is known after the word at address `i`. -/
def knownAfter (k : Known) (i w : Nat) : Known :=
  let op := wOp w
  let d := bits w 25 22
  let a := bits w 21 18
  let b := bits w 17 14
  if 1 ≤ op ∧ op ≤ 9 then k.set d (k.both a b (aluValue op))
  else match op with
    | 0x0A => k.set d ((tfind k a).map fun v => ofSigned 24 (v + toSigned 18 (bits w 17 0)))
    | 0x0B => tput k d (bits w 11 0 * 4096)
    | 0x0C =>
      let p := fun x y => x * y % 2 ^ 24
      (k.set d (k.both a b p)).set (d + 1) (k.both a (bits w 13 10) p)
    | 0x0D =>
      let p := fun x y => ofSigned 48 (toSigned 24 x * toSigned 24 y)
      (k.set d ((k.both a b p).map (· % 2 ^ 24))).set (d + 1) ((k.both a b p).map (· / 2 ^ 24))
    | 0x11 | 0x14 | 0x16 => tdel k d
    | 0x1D => tput k 15 (i + 3)
    | _ => k

/-- What is known on two paths that meet. -/
def Known.meet (k l : Known) : Known := k.filter fun x => tfind l x.1 == some x.2

/-- Every register is 0 when a programme is loaded (08 R195). -/
def Known.reset : Known := (List.range 16).map fun i => (i, 0)

/-! ### Control flow (08 R200, R202) -/

/-- The code of an engine with the addresses at which its acts enter it. -/
structure CodeView where
  ws : Array Nat
  entries : List Nat

/-- The word at an address. -/
def CodeView.word (c : CodeView) (i : Nat) : Nat := c.ws.getD i 0

/-- The code that a programme gives an engine, with its acts' entries. -/
def codeView (p : Programme) (c : ProgCode) : CodeView :=
  { ws := c.code.toArray
    entries := ((p.acts.filter fun a => a.kind == 1 && decide (a.first ≤ c.engine) && decide (c.engine < a.first + a.count)).map
      (·.entry)).eraseDups }

/-- What is known before each word; none where no path is known to lead there. -/
abbrev KnownTab := Array (Option Known)

/-- What is known before a word. -/
def KnownTab.before (t : KnownTab) (i : Nat) : Known := ((t.getD i none).getD [])

/-- The iterations that validation assumes of a REPEAT: of REPEATG what its register is known to hold, else 65,535 (08 R200). -/
def repCount (k : Known) (w : Nat) : Nat :=
  if wOp w = 0x21 then (match tfind k (bits w 17 14) with | some v => v % 2 ^ 16 | none => 65535) else bits w 15 0

/-- Where a branch at address `i` leads when it is taken: JR to what its register is known to hold, else behind any JAL's delay slots
(log entry 66). -/
def branchTargets (c : CodeView) (k : Known) (i : Nat) : List Nat :=
  let w := c.word i
  if wOp w = 0x1E then
    match tfind k (bits w 25 22) with
    | some v => [v % 4096]
    | none => ((List.range c.ws.size).filter fun j => wOp (c.word j) == 0x1D).map (· + 3)
  else [bits w 11 0]

/-- Whether some branch leads to an address. -/
def CodeView.jumpedTo (c : CodeView) (i : Nat) : Bool :=
  c.entries.contains i || c.ws.any fun w => isBranch w && wOp w != 0x1E && bits w 11 0 == i

/-- The addresses that may follow address `j` within an act: after a branch's second delay slot its target, after the last word of a
body its first, and the next. -/
def nextAddrs (c : CodeView) (t : KnownTab) (j : Nat) : List Nat :=
  let w := c.word j
  let loops := ((List.range (min j 63)).map (j - 1 - ·)).filter fun r => isRepeat (c.word r) && r + repLen (c.word r) == j
  if isWaito w then []
  else if 2 ≤ j ∧ isBranch (c.word (j - 2)) = true then
    branchTargets c (t.before (j - 2)) (j - 2) ++
      (if isConditional (c.word (j - 2)) || c.jumpedTo j || c.jumpedTo (j - 1) then [j + 1] else [])
  else
    (if isRepeat w then
      let n := repCount (t.before j) w
      (if n = 0 ∨ repLen w = 0 then [] else [j + 1]) ++
        (if n = 0 ∨ repLen w = 0 ∨ (wOp w = 0x21 ∧ (tfind (t.before j) (bits w 17 14)).isNone) then [j + 1 + repLen w] else [])
     else [j + 1]) ++ loops.map (· + 1)

/-- What is known before the words after one pass over the code: each act's end leads to every act's entry (08 R202). -/
def flowPass (c : CodeView) (t : KnownTab) : KnownTab :=
  (List.range c.ws.size).foldl (fun t j =>
    match t.getD j none with
    | none => t
    | some k =>
      let out := knownAfter k j (c.word j)
      let ways := if isWaito (c.word j) then c.entries else nextAddrs c t j
      ways.foldl (fun t i => t.modify i fun
        | some old => some (old.meet out)
        | none => some out) t) t

/-- The passes go on until nothing changes. -/
def flowFix (fuel : Nat) (c : CodeView) (t : KnownTab) : KnownTab :=
  match fuel with
  | 0 => t
  | fuel + 1 =>
    let u := flowPass c t
    if u == t then t else flowFix fuel c u

/-- What is known before each word of an engine's code, whatever acts ran before. -/
def knownTab (c : CodeView) : KnownTab :=
  let start : KnownTab := Array.replicate c.ws.size none
  flowFix (17 * c.ws.size + 1) c (c.entries.foldl (fun t i => t.modify i fun _ => some Known.reset) start)

/-! ### The rules of R196, R199, R200, R235 -/

/-- The REPEATs whose body holds address `i`, as (level, last address). -/
def loopsAt (ws : List Nat) (i : Nat) : List (Nat × Nat) :=
  ((List.range i).filter fun j => isRepeat (ws.getD j 0) && decide (i ≤ j + repLen (ws.getD j 0))).map fun j =>
    (bits (ws.getD j 0) 25 25, j + repLen (ws.getD j 0))

/-- The rules of R200 at address `i`. -/
def structureOk (ws : List Nat) (t : KnownTab) (i : Nat) : Bool :=
  let w := ws.getD i 0
  let loops := loopsAt ws i
  (!isBranch w || (body ws i 2).all fun x => !(isBranch x || isRepeat x || isWaito x)) &&
  (loops.isEmpty || !(isBranch w || isWaito w)) &&
  (!isRepeat w ||
    (decide (i + repLen w ≤ 4095) &&
     (if bit w 25 then loops.any (fun l => l.1 == 0) else loops.isEmpty) &&
     loops.all (fun l => decide (i + repLen w ≤ l.2)) &&
     ((body ws i (repLen w)).any (fun x => [0x2C, 0x2E, 0x24, 0x27].contains (wOp x)) ||
       decide (repCount (t.before i) w * repLen w ≤ 65536))))

/-- The address registers through which a word reaches the operand store. -/
def operandRegs (w : Nat) : List Nat :=
  if wOp w = 0x2C then [bits w 25 23, bits w 22 20] else if wOp w = 0x2D then [bits w 25 23]
  else if wOp w = 0x2E then [bits w 22 20] else []

/-- The address register of LDC and STC. -/
def constRegs (w : Nat) : List Nat := if wOp w = 0x14 ∨ wOp w = 0x15 then [bits w 21 19] else []

/-- What may follow a word, the entries of the acts behind a WAITO among it (08 R202). -/
def followers (c : CodeView) (t : KnownTab) (j : Nat) : List Nat := if isWaito (c.word j) then c.entries else nextAddrs c t j

/-- The addresses that a list of starts leads to before another SETC of the register (08 R196). -/
def setcReaches (fuel : Nat) (c : CodeView) (t : KnownTab) (r : Nat) (seen : List Nat) (starts : List Nat) : List Nat :=
  match fuel with
  | 0 => seen
  | fuel + 1 =>
    let fresh := (starts.filter fun i => decide (i < c.ws.size) && !seen.contains i).eraseDups
    if fresh.isEmpty then seen
    else setcReaches fuel c t r (fresh ++ seen)
      ((fresh.filter fun i => !(wOp (c.word i) == 0x13 && bits (c.word i) 25 23 == r)).flatMap (followers c t))

/-- Whether SETC at address `i` with constant operands keeps its register within the store that the code reaches through it before it
sets it again: 3,072 lines or 1,024 words (08 R196). -/
def setcOk (c : ProgCode) (v : CodeView) (t : KnownTab) (i : Nat) : Bool :=
  let w := v.word i
  let k := t.before i
  if wOp w = 0x13 then
    match tfind k (bits w 17 14), tfind k (bits w 13 10) with
    | some b, some n =>
      let past := b % 2 ^ 16 + max 1 (n % 2 ^ 16)
      let r := bits w 25 23
      decide (past ≤ 1024) ||
      (let on := (setcReaches (v.ws.size + 1) v t r [] (followers v t i)).map v.word
       (decide (past ≤ 3072) || !((on.flatMap operandRegs).contains r || (c.tables.flatten.map (·.2)).contains r)) &&
         !(on.flatMap constRegs).contains r)
    | _, _ => true
  else true

/-- Whether PASS with a constant scale exponent keeps it within -64 to +64 (08 R199). -/
def scaleOk (k : Known) (w : Nat) : Bool :=
  if wOp w = 0x2C then
    match tfind k (bits w 13 10) with
    | some v => decide (-64 ≤ toSigned 24 v) && decide (toSigned 24 v ≤ 64)
    | none => true
  else true

/-- Whether a tile number binds a beam accumulator (10 R235). -/
def beamTile (v : Nat) : Bool := decide (0x3000 ≤ v % 2 ^ 14)

/-- Whether TACQ with H = 1 keeps off a beam binding, where its tile is known (10 R235). -/
def beamBindOk (k : Known) (w : Nat) : Bool :=
  if wOp w = 0x28 ∧ bit w 11 = true then
    match tfind k (bits w 19 16) with
    | some v => !beamTile v
    | none => true
  else true

/-! ### Passes (08 R193) -/

/-- The slots of PASS and BPASS in order, with 64 for a PSYNC. -/
def arraySlots (ws : List Nat) : List Nat :=
  ws.filterMap fun w => if isPass w then some (passSlot w) else if wOp w = 0x27 then some 64 else none

/-- Whether no two neighbours of a list of slots are equal, PSYNC apart (08 R193). -/
def slotsApart : List Nat → Bool
  | a :: b :: t => (a != b || a == 64) && slotsApart (b :: t)
  | _ => true

/-- The first rule of R193: in sequence, and from the end of each body that repeats to its start. -/
def slotOrderOk (ws : List Nat) (t : KnownTab) : Bool :=
  slotsApart (arraySlots ws) &&
  (List.range ws.length).all fun i =>
    let w := ws.getD i 0
    let l := arraySlots (body ws i (repLen w))
    !isRepeat w || decide (repCount (t.before i) w ≤ 1) || (match l.head?, l.getLast? with
      | some a, some b => a != b || a == 64
      | _, _ => true)

/-- A walk over the code from an entry with a mask of conditions that `f` updates at each word, joined where paths meet: the masks that
may hold before each word, as rising lists. -/
def walkPass (c : CodeView) (t : KnownTab) (f : Nat → Nat → Nat) (m : Array (List Nat)) : Array (List Nat) :=
  (List.range c.ws.size).foldl (fun m j =>
    let out := (m.getD j []).map (f (c.word j))
    if out.isEmpty then m
    else (nextAddrs c t j).foldl (fun m i => m.modify i fun old => old ++ (out.filter fun x => !old.contains x).eraseDups) m) m

/-- The walk goes on until nothing changes. -/
def walkFix (fuel : Nat) (c : CodeView) (t : KnownTab) (f : Nat → Nat → Nat) (m : Array (List Nat)) : Array (List Nat) :=
  match fuel with
  | 0 => m
  | fuel + 1 =>
    let n := walkPass c t f m
    if n == m then m else walkFix fuel c t f n

/-- The conditions that may hold before each word of the act that enters the code at `entry`, whose words change them by `f`. -/
def walk (c : CodeView) (t : KnownTab) (entry : Nat) (f : Nat → Nat → Nat) : Array (List Nat) :=
  walkFix (64 * c.ws.size + 1) c t f ((Array.replicate c.ws.size []).modify entry fun _ => [0])

/-- One slot's part of the walk: 1 while a pass on the slot may be in flight. -/
def flightOf (slot w old : Nat) : Nat := if wOp w = 0x27 then 0 else if isPass w && passSlot w == slot then 1 else old

/-- Whether an act's code may have a pass on a slot in flight. -/
def actPasses (c : CodeView) (t : KnownTab) (entry slot : Nat) : Bool :=
  let m := walk c t entry (fun _ x => x)
  (List.range c.ws.size).any fun i => !(m.getD i []).isEmpty && isPass (c.word i) && passSlot (c.word i) == slot

/-- Whether at some DKICK of a channel in an act's code one of the slots of a list may have a pass in flight. -/
def kickInFlight (c : CodeView) (t : KnownTab) (entry ch : Nat) (slots : List Nat) : Bool :=
  slots.any fun x =>
    let m := walk c t entry (flightOf x)
    (List.range c.ws.size).any fun i => wOp (c.word i) == 0x2F && bits (c.word i) 5 0 == ch && (m.getD i []).contains 1

/-! ### Handovers (11 R273) -/

/-- Whether a word passes on a slot, or acquires or clears it. -/
def usesSlot (slot w : Nat) : Bool :=
  ([0x28, 0x2A].contains (wOp w) && tileSlot w == slot) || (isPass w && passSlot w == slot)

/-- The source's part of the walk: 1 after a PSYNC, 2 after the TREL of the slot that follows it. -/
def releaseStep (slot w old : Nat) : Nat :=
  if wOp w = 0x27 then max old 1 else if wOp w = 0x29 ∧ tileSlot w = slot ∧ old = 1 then 2 else old

/-- Whether on every path from its entry code executes PSYNC, then TREL of a slot, and issues nothing else on it (11 R273). -/
def releasesSlot (c : CodeView) (t : KnownTab) (entry slot : Nat) : Bool :=
  let m := walk c t entry (releaseStep slot)
  (List.range c.ws.size).all fun i =>
    let on := m.getD i []
    on.isEmpty || (!usesSlot slot (c.word i) && (!isWaito (c.word i) || on.all (· == 2)))

/-- The destination's part of the walk: 1 after TACQ of the slot with H = 1. -/
def acquireStep (slot w old : Nat) : Nat := if wOp w = 0x28 ∧ tileSlot w = slot ∧ bit w 11 = true then 1 else old

/-- Whether on every path from its entry code executes TACQ of a slot with H = 1 before any use of it (11 R273). -/
def acquiresSlot (c : CodeView) (t : KnownTab) (entry slot : Nat) : Bool :=
  let m := walk c t entry (acquireStep slot)
  (List.range c.ws.size).all fun i =>
    let w := c.word i
    let use := (isPass w && passSlot w == slot) || (wOp w == 0x2A && tileSlot w == slot)
    !(m.getD i []).contains 0 || !(use || isWaito w)

end Sys2Proof.Machine
end

