-- ==== Sys2Proof/Decode.lean ====
section
/-! DEFINITION. The commands that words spell: the instruction words of an engine's sequencer (08_correlation_engines.md R198,
Table 8.8). The table of operations and events gives no row bits; its other commands come to the block as packets, register
accesses and events, which their rows take as operands. -/

namespace Sys2Proof

open Machine in
/-- The command of engine `e` that a 32-bit instruction word spells; none for a reserved opcode, a bit set that no field names or
an odd D of MUL2 or MULW (08 R198). -/
def sequencerWord (e w : Nat) : Option Instr :=
  let d := bits w 25 22
  let a := bits w 21 18
  let b := bits w 17 14
  let c := bits w 13 10
  let k := bits w 25 23
  let k' := bits w 21 19
  let l := bits w 25 25
  let low := bits w 11 0
  let slot := bits w 25 20
  let slot' := bits w 19 14
  if wordEncodes w = false then none
  else match wOp w with
    | 0x00 => some (.nop e)
    | 0x01 => some (.add e d a b)
    | 0x02 => some (.sub e d a b)
    | 0x03 => some (.and e d a b)
    | 0x04 => some (.or e d a b)
    | 0x05 => some (.xor e d a b)
    | 0x06 => some (.shl e d a b)
    | 0x07 => some (.shr e d a b)
    | 0x08 => some (.sra e d a b)
    | 0x09 => some (.slt e d a b)
    | 0x0A => some (.addi e d a (toSigned 18 (bits w 17 0)))
    | 0x0B => some (.lui e d low)
    | 0x0C => some (.mul2 e d a b c)
    | 0x0D => some (.mulw e d a b)
    | 0x10 => some (.movag e k b)
    | 0x11 => some (.movga e d k')
    | 0x12 => some (.adda e k (toSigned 16 (bits w 15 0)))
    | 0x13 => some (.setc e k b c)
    | 0x14 => some (.ldc e d k' low)
    | 0x15 => some (.stc e k' b low)
    | 0x16 => some (.rdlc e d (bits w 21 21))
    | 0x18 => some (.br e low)
    | 0x19 => some (.bz e d low)
    | 0x1A => some (.bnz e d low)
    | 0x1B => some (.bltz e d low)
    | 0x1C => some (.bgez e d low)
    | 0x1D => some (.jal e low)
    | 0x1E => some (.jr e d)
    | 0x20 => some (.repeatLoop e l (bits w 24 19) (bits w 15 0))
    | 0x21 => some (.repeatLoopG e l (bits w 24 19) b)
    | 0x24 => some (.waitf e k low)
    | 0x25 => some (.freef e k low)
    | 0x26 => some (.waito e)
    | 0x27 => some (.psync e)
    | 0x28 => some (.tacq e slot (bits w 19 16) (bits w 15 12) (bit w 11))
    | 0x29 => some (.trel e slot none)
    | 0x2A => some (.tclr e slot)
    | 0x2C => some (.pass e k (bits w 22 20) slot' c (bit w 9) (bit w 8) (bit w 7))
    | 0x2D => some (.bload e k (bit w 8) none)
    | 0x2E => some (.bpass e (bits w 22 20) slot' (bit w 7))
    | 0x2F => some (.dkick e (bits w 5 0))
    | _ => none

/-- The command that a word spells: a 32-bit word as engine 0's sequencer reads it. -/
def decodeTableWord (nbits w : Nat) : Option Instr := if nbits = 32 then sequencerWord 0 w else none

end Sys2Proof
end

