-- ==== Sys2Proof/Machine/EventCmds.lean ====
section
/-! DEFINITION. The event tree, the fault record and the journal as commands, registers and packets reach them
(16_events_and_faults.md R366 to R379; 13_command_protocol.md R319, R320). -/

namespace Sys2Proof.Machine

/-! ### Pins and maps -/

/-- EVENT_N is held low (16 R370). -/
def eventNLow (s : State) : Bool := routedLow s 0

/-- FAULT_N is held low: by a route, after a wake failure, while no unit can claim the baton, or since a boot that
found no image or did not train the HBM (16 R370; 19 R415, R418). -/
def faultNLow (s : State) : Bool := 
  !s.boot.porstLow && (routedLow s 1 || s.pwr.wakeFailed || s.cu.noHolder || s.boot.noImage || s.boot.hbmFailed)

/-- The PINS byte of EVENTS_READ and of the event tree block (16 Table 16.6). -/
def pinsByte (s : State) : Nat := b2n (eventNLow s) + 2 * b2n (faultNLow s)

/-- CU_ACTIVE is high while unit B holds the baton; while it passes or is free the pin keeps the level of the last holder (14 R330). -/
def cuActiveHigh (s : State) : Bool := !s.boot.porstLow && s.cu.holder == 1

/-- The sticky bits that a 128-byte map reports; a reserved or absent event reads as 0 (16 R364, R367). -/
def stickyMap (s : State) : Bytes := eventMap fun e => eventPresent s.fuses.variant e && s.stickyBit e

/-- Clears the cause mask that belongs to event `e`: of an engine, a half-port, a DMA channel or the Management Port
(16 R366; 03 R70, R446; 08 R205; 12 R298). -/
def clearCause (e : Nat) (s : State) : State :=
  if e < 512 then s.onEng e fun x => { x with cause := 0 }
  else if e < 640 then s.onHp (e - 512) fun p => { p with cause := 0 }
  else if 768 ≤ e ∧ e < 832 then s.onDch (e - 768) fun d => { d with cause := 0 }
  else if e = 992 then { s with mp := { s.mp with cause := 0 } }
  else s

/-- Clears sticky bit `e` and its cause mask; a reserved or absent event is ignored (16 R366). -/
def clearEvent (e : Nat) (s : State) : State :=
  if eventPresent s.fuses.variant e then
    clearCause e { s with ev := { s.ev with sticky := s.ev.sticky &&& ~~~(1#1024 <<< e) } }
  else s

/-- Clears the events for which `p` holds. -/
def clearEvents (p : Nat → Bool) (s : State) : State :=
  (List.range 1024).foldl (fun s e => if p e then clearEvent e s else s) s

/-- Clears every occurrence counter (16 R371). -/
def clearOccurrences (s : State) : State := { s with ev := { s.ev with occurrences := [] } }

/-! ### The commands (13 Table 13.8) -/

/-- EVENTS_READ: the sticky bits, the events whose route is non-zero and the pins (16 R366, R368). -/
def eventsRead (_ : Ctx) (s : State) : Verdict :=
  .answer (stickyMap s ++ eventMap (fun e => s.route e != 0) ++ be 1 (pinsByte s) ++ [0, 0, 0])

/-- EVENTS_CLEAR: the reply shows the tree after the clear (16 R366). -/
def eventsClear (c : Ctx) (_ : State) : Verdict :=
  .done fun s => let s := clearEvents (fun e => mapBit c.p e) s; (s, stickyMap s)

/-- FAULT_RECORD_READ: the slots, and with CLEAR exactly those returned emptied (16 R378). -/
def faultRecordRead (c : Ctx) (_ : State) : Verdict :=
  let first := fld c.p 0 1
  let count := fld c.p 1 1
  let flags := fld c.p 2 1
  if 63 < first ∨ 64 < count ∨ 1 < flags ∨ fld c.p 3 1 ≠ 0 then .no .badParam
  else .done fun s =>
    let slots := (List.range (min count (64 - first))).map (first + ·)
    let out := slots.flatMap fun i => faultBytes (tfind s.ev.faults i)
    (if flags = 1 then { s with ev := { s.ev with faults := slots.foldl tdel s.ev.faults } } else s,
     be 1 slots.length ++ [0, 0, 0] ++ out)

/-- EVENT_ROUTE: the route takes effect when the command completes; a bit already set is not sent again (16 R368). -/
def eventRoute (c : Ctx) (s : State) : Verdict :=
  let e := fld c.p 0 2
  let r := fld c.p 2 1
  if !eventPresent s.fuses.variant e ∨ 15 < r ∨ fld c.p 3 1 ≠ 0 then .no .badParam
  else .did fun s => { s with ev := { s.ev with routes := tput s.ev.routes e (BitVec.ofNat 8 r) } }

/-- JOURNAL_READ: entries from FIRST_JSN, or from the oldest held, in ascending order (13 Table 13.8, R320). -/
def journalRead (c : Ctx) (s : State) : Verdict :=
  let count := fld c.p 8 2
  if 139 < count ∨ fld c.p 10 2 ≠ 0 then .no .badParam
  else
    let first := fld c.p 0 8
    let es := ((s.cmd.journal.reverse.dropWhile fun e => decide (e.jsn < first)).take count)
    .done fun s =>
      let top := es.foldl (fun m e => max m e.jsn) s.cmd.readJsn
      ({ s with cmd := { s.cmd with readJsn := top } },
       be 8 s.oldestJsn ++ be 8 s.newestJsn ++ be 2 es.length ++ List.replicate 6 0 ++ es.flatMap s.entryBytes)

/-- JOURNAL_MARK: its entry is its whole effect (13 R319, `journalCommand`). -/
def journalMark (_ : Ctx) (_ : State) : Verdict := .did id

/-! ### Event packets (16 R372 to R374) -/

/-- The UDP payload of an event packet (16 Table 16.4). -/
def eventPacket (s : State) : Bytes :=
  be 2 0x4756 ++ [1] ++ be 1 s.ev.queue.length ++ be 4 s.ev.packetSeq ++ be 4 s.cmd.bootId ++
    be 2 (b2n s.ev.lost + 2 * pinsByte s) ++ be 2 s.ev.holdStamp.epoch ++ be 8 s.ev.holdStamp.packed ++ be 8 s.newestJsn ++
    s.ev.queue.flatMap fun r => be 2 r.event ++ be 2 r.cause ++ be 4 (min (r.cycle - s.ev.holdCycle) (2 ^ 32 - 1))

/-- The port on which an event packet can leave now: 255 the Management Port; none where it is dropped (16 R372). -/
def eventPort (s : State) : Option Nat :=
  let p := s.eff 0x0D00
  if s.eff 0x0D03 = 0 ∨ s.ipOf p = 0 then none
  else if p = 255 then (if s.mp.state = .up then some 255 else none)
  else if s.ethUp p then some p else none

/-- Whether the queued records leave now: the hold-off has ended or 64 are queued, the device does not sleep, and the packet before
has left channel 63 (16 R372, R373). -/
def eventPacketDue (s : State) : Bool :=
  !s.boot.porstLow && s.pwr.state != .sleep && !s.ev.queue.isEmpty &&
    (decide (64 ≤ s.ev.queue.length) || decide (s.ev.holdCycle + 1000 * s.eff 0x0D05 ≤ s.cycle)) &&
    (match eventPort s with
     | some 255 | none => true
     | some _ => s.dmaLive && ((s.dch 63).state == 0 || (s.dch 63).state == 5))

/-- The records of a packet leave the queue; SEQ rises (16 R374). -/
def takeRecords (s : State) : State :=
  { s with ev := { s.ev with queue := [], lost := false, packetSeq := (s.ev.packetSeq + 1) % 2 ^ 32 } }

/-- An event packet leaves on a port, with `n` records. -/
def eventLeaves (port n : Nat) (data : Bytes) (s : State) : State :=
  sendUdp port (s.eff 0x0D01 * 2 ^ 16 + s.eff 0x0D02) none 0 (s.eff 0x0D03) (s.eff 0x0D04) (s.eff 0x0D04) data
    { s with ev := { s.ev with packetsSent := satInc 32 s.ev.packetsSent, recordsSent := satAdd 32 s.ev.recordsSent n } }

/-- An event packet is dropped and counted. -/
def eventDropped (s : State) : State := { s with ev := { s.ev with packetsDropped := satInc 32 s.ev.packetsDropped } }

/-- Channel 63 starts on a packet for a half-port: one STREAM descriptor that the device builds, with the event packet queue's level
request, since the whole packet is there (12 R280, R292; 16 R372; log entry 142). -/
def startEventPacket (port : Nat) (data : Bytes) (s : State) : State :=
  let s := startChain 63 { gen := 0, frame := 0, act := port, first := 0, trigger := true, cut := false, data := data
                           built := [internalDesc 6 (s.eff 0x0A01) data.length 0 0 true 0] } s
  s.onDch 63 fun x => { x with level := true }

/-- The packet of the queued records is sent from the Management Port, handed to channel 63, or dropped and counted (16 R372, R374). -/
def sendEventPacket (s : State) : State :=
  let data := eventPacket s
  match eventPort s with
  | some 255 => eventLeaves 255 s.ev.queue.length data (takeRecords s)
  | some p => startEventPacket p data (takeRecords s)
  | none => eventDropped (takeRecords s)

/-! ### Registers of the event tree block (16 Table 16.6) -/

/-- A W1C write of STICKY word `i`: event e is bit 31 - (e mod 32) of word e div 32 (16 R366, R367). -/
def stickyW1c (i value : Nat) (s : State) : State :=
  clearEvents (fun e => decide (e / 32 = i) && bit value (31 - e % 32)) s

/-- STICKY_W1C: the holder, or the debug access port, writes STICKY word `i`. -/
def execStickyW1c (i value : Nat) (s : State) : Host.Outcome State Fault Refusal := .next (stickyW1c i value s)

/-- COUNTER_CLEAR: a write of the register; bit 0 clears the occurrence counters (16 R371). -/
def execCounterClear (value : Nat) (s : State) : Host.Outcome State Fault Refusal :=
  .next (if bit value 0 then clearOccurrences s else s)

end Sys2Proof.Machine
end

