-- ==== Sys2Proof/Machine/Calliope.lean ====
section
/-! DEFINITION. Calliope: configurations, strobes, the NCO, queue playback and safe codes (18_calliope_outputs.md). -/

namespace Sys2Proof.Machine

/-- Calliope channel `n`. -/
def State.calCh (s : State) (n : Nat) : CalChannel := tget s.cal.channels n {}

/-- Changes Calliope channel `n`. -/
def State.onCal (s : State) (n : Nat) (f : CalChannel → CalChannel) : State :=
  { s with cal := { s.cal with channels := tput s.cal.channels n (f (s.calCh n)) } }

/-- CAL_SAFE_n: from the image layer or the factory layer (18 R409). -/
def calSafe (s : State) (n : Nat) : Int := s.effInt (0x0C00 + n)

/-- A DAC code or queue sample within the range of 18 R401. -/
def calCodeOk (x : Int) : Bool := decide (-8191 ≤ x) && decide (x ≤ 8191)

/-- Samples in a queue (18 R406). -/
def calQueueSize : Nat := 32768

/-! ### Forced safe codes (18 R408) -/

/-- A channel goes to its forced safe code. -/
def calToSafe (n cause : Nat) (s : State) : State :=
  let safe := calSafe s n
  s.onCal n fun c => { c with forced := true, cause := cause, code := if s.cal.safeRead then safe else 0 }

/-- A forced safe code begins, or another cause joins it: 1 shedding, 2 handshake, 3 underrun, 4 parity. -/
def calForce (n cause : Nat) (s : State) : State :=
  if (s.calCh n).forced then calToSafe n cause s else raise 1010 (calToSafe n cause s)

/-- Every channel to its safe code: one entry, one EV_CAL_SAFE (18 R408; log entry 47). -/
def calForceAll (cause : Nat) (s : State) : State :=
  let entered := (List.range 4).any fun n => !(s.calCh n).forced
  let s := (List.range 4).foldl (fun s n => calToSafe n cause s) s
  if entered then raise 1010 s else s

/-- Whether the cause of a channel's forced safe code lasts: shedding stage 1 or deeper, or handshake block 5. -/
def calCauseLasts (s : State) : Bool := s.pwr.low != 0 || s.pwr.agreed.contains 5

/-- Boot has read the image: the outputs take the safe codes (18 R409). -/
def calSafeRead (s : State) : State :=
  let s := { s with cal := { s.cal with safeRead := true } }
  (List.range 4).foldl (fun s n => s.onCal n fun c => { c with code := calSafe s n }) s

/-! ### Strobes (18 R402 to R404) -/

/-- The pending configurations that a strobe of `groups` takes: those of the channels now in these groups; with `strict`,
only those accepted before cycle `at'`. -/
def calTaken (s : State) (groups at' : Nat) (strict : Bool) : Tab CalConfig :=
  (List.range 4).filterMap fun n =>
    let c := s.calCh n
    match c.waiting with
    | some w => if bit groups c.active.group && (!strict || decide (c.waitingAt < at')) then some (n, w) else none
    | none => none

/-- Inserts a strobe in cycle order; strobes of one cycle are one strobe of the union of their groups (18 R403). -/
def calInsert (x : CalStrobe) : List CalStrobe → List CalStrobe
  | [] => [x]
  | y :: ys =>
    if y.cycle = x.cycle then { y with groups := y.groups ||| x.groups, configs := y.configs ++ x.configs } :: ys
    else if x.cycle < y.cycle then x :: y :: ys else y :: calInsert x ys

/-- Takes a strobe of a set of groups in core cycle `at'` (18 R402, R403). -/
def calStrobe (groups at' : Nat) (strict : Bool) (s : State) : State :=
  if groups % 256 = 0 then s
  else
    let taken := calTaken s (groups % 256) at' strict
    let s := taken.foldl (fun s e => s.onCal e.1 fun c => { c with waiting := none }) s
    { s with cal := { s.cal with strobes := calInsert { groups := groups % 256, cycle := at', configs := taken } s.cal.strobes } }

/-- The DAC sample at which a strobe taken in a cycle acts: the first that begins at or after 8 cycles on (18 R403). -/
def calActs (cycle : Nat) : Nat := (cycle + 8 + 3) / 4

/-- What a strobe does to one channel (18 R404, R407, R408). -/
def calApplyOne (x : CalStrobe) (s : State) (n : Nat) : State :=
  let c := s.calCh n
  if !bit x.groups c.active.group then s
  else
    let new := tfind x.configs n
    let lasts := calCauseLasts s
    let safe := calSafe s n
    let active := new.getD c.active
    let stays := lasts || (c.cause == 3 && active.mode == 2 && c.queue.isEmpty)
    let ends := c.forced && !stays
    let s := s.onCal n fun c => { c with strobes := satInc 32 c.strobes }
    if new.isNone && !ends then s
    else s.onCal n fun c =>
      let c := { c with active := active, due := calActs x.cycle }
      let c := if ends then { c with forced := false, cause := 0 } else c
      let c := match active.mode with
        | 1 => { c with phase := active.phase0, queue := [] }
        | 2 => c
        | _ => { c with queue := [] }
      if c.forced ∨ active.mode = 0 then { c with code := if s.cal.safeRead then safe else 0 } else c

/-- A strobe acts on every channel at one DAC sample; it is counted per group (18 R404). -/
def calApply (x : CalStrobe) (s : State) : State :=
  let s := (List.range 4).foldl (calApplyOne x) s
  { s with cal := { s.cal with
      groupStrobes := (List.range 8).foldl (fun t g => if bit x.groups g then tmod t g 0 (satInc 32) else t) s.cal.groupStrobes } }

/-- CAL_STROBE_APPLY: `dt` core cycles on, the oldest strobe reaches its DAC sample. -/
def execCalStrobeApply (dt : Nat) (s : State) : Host.Outcome State Fault Refusal :=
  let s := s.advance dt
  .next (match s.cal.strobes with
    | x :: xs => if 4 * calActs x.cycle ≤ s.cycle then calApply x { s with cal := { s.cal with strobes := xs } } else s
    | [] => s)

/-- CAL_LOAD_EDGE: a rising edge on CAL_LOAD, behind a 2-cycle synchroniser (18 R403). -/
def execCalLoadEdge (s : State) : Host.Outcome State Fault Refusal :=
  .next (if s.ctlLive then calStrobe (s.eff 0x0C04) (s.cycle + 2) false s else s)

/-- CALLIOPE_STROBE_REGISTER: a write of the STROBE register (18 R410). -/
def execCalliopeStrobeRegister (value : Nat) (s : State) : Host.Outcome State Fault Refusal :=
  .next (if s.ctlLive then calStrobe value s.cycle false s else s)

/-! ### The NCO (18 R405) -/

/-- Q(i): 32,767 times the sine of i + 1/2 steps of 1/16,384 turn, to the nearest integer. -/
def sineQ (i : Nat) : Int :=
  let x := piFix * ((8191 - 2 * i : Nat) : Int) / 16384
  (32767 * cosSeries 24 0 (2 ^ 96) (x * x / 2 ^ 96) * 2 + 2 ^ 96) / 2 ^ 97

/-- The table value of a phase. -/
def ncoSine (p : Nat) : Int :=
  let idx := p / 2 ^ 34 % 16384
  let j := idx % 4096
  match idx / 4096 with
  | 0 => sineQ j
  | 1 => sineQ (4095 - j)
  | 2 => -sineQ j
  | _ => -sineQ (4095 - j)

/-- The code of an NCO sample: trunc0 of 05 R99. -/
def ncoCode (p amplitude : Nat) : Int := (ncoSine p * (amplitude : Int)).tdiv (2 ^ 18)

/-- CAL_NCO_SAMPLE: `dt` core cycles on, the DAC sample that channel `n` in MODE 1 is due (18 R401, R405). -/
def execCalNcoSample (n dt : Nat) (s : State) : Host.Outcome State Fault Refusal :=
  let s := s.advance dt
  let c := s.calCh n
  .next (if n < 4 ∧ s.ctlLive = true ∧ s.cal.safeRead = true ∧ c.active.mode = 1 ∧ c.forced = false ∧ 4 * c.due ≤ s.cycle then
      s.onCal n fun c => { c with code := ncoCode c.phase c.active.amplitude, due := c.due + 1,
                                  phase := (c.phase + c.active.phaseInc) % 2 ^ 48 }
    else s)

/-! ### Queue playback (18 R406, R407) -/

/-- A queue sample is due: taken, or an underrun; `bad` says that the word fails parity. -/
def calTakeSample (n : Nat) (bad : Bool) (s : State) : State :=
  match (s.calCh n).queue with
  | [] => calForce n 3 (raise 1008 (s.onCal n fun c => { c with underruns := satInc 32 c.underruns }))
  | x :: xs =>
    let s := s.onCal n fun c => { c with queue := xs, due := c.due + c.active.divider }
    if bad then calForce n 4 (raiseFault 1009 { loc := locDie, detail := n } s)
    else s.onCal n fun c => { c with code := x }

/-- CAL_QUEUE_SAMPLE: `dt` core cycles on, the queue sample that channel `n` in MODE 2 is due. -/
def execCalQueueSample (n dt : Nat) (bad : Bool) (s : State) : Host.Outcome State Fault Refusal :=
  let s := s.advance dt
  let c := s.calCh n
  .next (if n < 4 ∧ s.ctlLive = true ∧ s.cal.safeRead = true ∧ c.active.mode = 2 ∧ c.forced = false ∧ 4 * c.due ≤ s.cycle then
      calTakeSample n bad s
    else s)

/-- A write of a channel's queue aperture: two samples, or the write is dropped whole (18 R406). -/
def calAperture (n word : Nat) (s : State) : State :=
  let a := toSigned 16 (bits word 31 16)
  let b := toSigned 16 (bits word 15 0)
  if calCodeOk a && calCodeOk b && decide ((s.calCh n).queue.length + 2 ≤ calQueueSize) then
    s.onCal n fun c => { c with queue := c.queue ++ [a, b] }
  else raise 1011 (s.onCal n fun c => { c with drops := satInc 32 c.drops })

/-- QUEUE_APERTURE_WRITE: a word written to channel `n`'s aperture. -/
def execQueueApertureWrite (n word : Nat) (s : State) : Host.Outcome State Fault Refusal :=
  .next (if n < 4 ∧ s.ctlLive = true then calAperture n word s else s)

/-! ### The commands (13 Table 13.9) -/

/-- CAL_CONFIGURE (18 R402, Table 18.1). -/
def calConfigure (c : Ctx) (_ : State) : Verdict :=
  let p := c.p
  let n := fld p 0 1
  let mode := fld p 1 1
  let group := fld p 2 1
  let inc := fld p 4 8
  let phase0 := fld p 12 8
  let divider := fld p 22 2
  if 3 < n ∨ 2 < mode ∨ 7 < group ∨ fld p 3 1 ≠ 0 ∨ 2 ^ 48 ≤ inc ∨ 2 ^ 48 ≤ phase0 ∨ (mode = 2 ∧ divider = 0) ∨
     fld p 24 4 ≠ 0 then .no .badParam
  else .did fun s => s.onCal n fun x =>
    { x with waitingAt := s.cycle
             waiting := some { mode := mode, group := group, phaseInc := inc, phase0 := phase0,
                               amplitude := fld p 20 2, divider := divider } }

/-- The samples that a CAL_QUEUE carries. -/
def calSamples (p : Bytes) : List Int := (List.range (fld p 2 2)).map fun i => toSigned 16 (fld p (4 + 2 * i) 2)

/-- CAL_QUEUE (18 R406). -/
def calQueue (c : Ctx) (s : State) : Verdict :=
  let n := fld c.p 0 1
  let xs := calSamples c.p
  if 3 < n ∨ fld c.p 1 1 ≠ 0 ∨ 4478 < xs.length ∨ !xs.all calCodeOk then .no .badParam
  else if calQueueSize < (s.calCh n).queue.length + xs.length then .no .busy
  else .done fun s =>
    let s := s.onCal n fun x => { x with queue := x.queue ++ xs }
    (s, be 2 (calQueueSize - (s.calCh n).queue.length) ++ [0, 0])

/-- CAL_STROBE (18 R403). -/
def calStrobeCmd (c : Ctx) (_ : State) : Verdict :=
  if fld c.p 1 3 ≠ 0 then .no .badParam else .did fun s => calStrobe (fld c.p 0 1) s.cycle false s

/-! ### Registers (18 R410) -/

/-- STATUS of a channel (18 Table 18.4). -/
def calStatus (s : State) (n : Nat) : Nat :=
  let c := s.calCh n
  let waits := c.waiting.isSome || s.cal.strobes.any fun x => thas x.configs n
  c.active.mode + 4 * c.active.group + 32 * b2n waits + 64 * b2n (c.forced || !s.cal.safeRead) + 128 * c.cause +
    1024 * ofSigned 14 c.code

/-- A read of the Calliope block at offset `o` (18 R410). -/
def calRead (s : State) (o : Nat) : Nat :=
  let n := o / 0x1000
  let c := s.calCh n
  if 3 < n then 0
  else match o % 0x1000 with
    | 0x000 => calStatus s n
    | 0x004 => c.phase / 2 ^ 16 % 2 ^ 32
    | 0x008 => calQueueSize - c.queue.length
    | 0x00C => c.strobes
    | 0x010 => c.underruns
    | 0x014 => c.drops
    | _ => 0

end Sys2Proof.Machine
end

