-- ==== Sys2Proof/Machine/Crypto.lean ====
section
/-! DEFINITION. SHA-256 (FIPS 180-4) and the verification of pure Ed25519 (RFC 8032), which 19 R421 names for the Ryunos
image. -/

namespace Sys2Proof.Machine

/-! ### SHA-2 -/

/-- Whether a number below 410 is prime. -/
def isPrime (n : Nat) : Bool := decide (2 ≤ n) && (List.range 20).all fun d => d < 2 || n % d != 0 || n == d

/-- The first 80 primes: every prime below 410. -/
def primes80 : List Nat := (List.range 410).filter isPrime

/-- The largest number of at most `bits` bits whose `p`-th power does not exceed `n`. -/
def rootFloor (p n : Nat) (bits acc : Nat) : Nat :=
  match bits with
  | 0 => acc
  | k + 1 => if (acc + 2 ^ k) ^ p ≤ n then rootFloor p n k (acc + 2 ^ k) else rootFloor p n k acc

/-- The first `w` bits of the fraction of the square or cube root of a prime. -/
def rootFraction (p w n : Nat) : Nat := rootFloor p (n * 2 ^ (p * w)) (w + 6) 0 % 2 ^ w

/-- The parameters of one SHA-2: word width, the shifts of its six functions, and its round constants. -/
structure Sha where
  w : Nat
  big0 : Nat × Nat × Nat
  big1 : Nat × Nat × Nat
  small0 : Nat × Nat × Nat
  small1 : Nat × Nat × Nat
  k : List Nat
  h : List Nat

/-- SHA-256. -/
def sha256Spec : Sha :=
  { w := 32, big0 := (2, 13, 22), big1 := (6, 11, 25), small0 := (7, 18, 3), small1 := (17, 19, 10)
    k := (primes80.take 64).map (rootFraction 3 32), h := (primes80.take 8).map (rootFraction 2 32) }

/-- SHA-512. -/
def sha512Spec : Sha :=
  { w := 64, big0 := (28, 34, 39), big1 := (14, 18, 41), small0 := (1, 8, 7), small1 := (19, 61, 6)
    k := (primes80.take 80).map (rootFraction 3 64), h := (primes80.take 8).map (rootFraction 2 64) }

/-- A right rotation of a word. -/
def rotr (w n x : Nat) : Nat := (x / 2 ^ n ||| x * 2 ^ (w - n)) % 2 ^ w

/-- The function of three rotations. -/
def sigmaBig (w : Nat) (r : Nat × Nat × Nat) (x : Nat) : Nat := rotr w r.1 x ^^^ rotr w r.2.1 x ^^^ rotr w r.2.2 x

/-- The function of two rotations and a shift. -/
def sigmaSmall (w : Nat) (r : Nat × Nat × Nat) (x : Nat) : Nat := rotr w r.1 x ^^^ rotr w r.2.1 x ^^^ x / 2 ^ r.2.2

/-- Extends the last 16 words of the schedule, newest first, by `n` words. -/
def shaExtend (p : Sha) (n : Nat) (ws : List Nat) : List Nat :=
  match n with
  | 0 => ws
  | n + 1 =>
    let g := fun i => ws.getD i 0
    shaExtend p n ((sigmaSmall p.w p.small1 (g 1) + g 6 + sigmaSmall p.w p.small0 (g 14) + g 15) % 2 ^ p.w :: ws)

/-- One round on the eight working words. -/
def shaRound (p : Sha) (v : List Nat) (kw : Nat × Nat) : List Nat :=
  let g := fun i => v.getD i 0
  let ch := (g 4 &&& g 5) ^^^ ((2 ^ p.w - 1 - g 4) &&& g 6)
  let maj := (g 0 &&& g 1) ^^^ (g 0 &&& g 2) ^^^ (g 1 &&& g 2)
  let t1 := g 7 + sigmaBig p.w p.big1 (g 4) + ch + kw.1 + kw.2
  let t2 := sigmaBig p.w p.big0 (g 0) + maj
  [(t1 + t2) % 2 ^ p.w, g 0, g 1, g 2, (g 3 + t1) % 2 ^ p.w, g 4, g 5, g 6]

/-- One block of 16 words. -/
def shaBlock (p : Sha) (h : List Nat) (block : List Nat) : List Nat :=
  let ws := (shaExtend p (p.k.length - 16) block.reverse).reverse
  List.zipWith (fun a b => (a + b) % 2 ^ p.w) h ((p.k.zip ws).foldl (shaRound p) h)

/-- The blocks of a padded message; the fuel is the number of blocks. -/
def shaBlocks (p : Sha) (fuel : Nat) (h : List Nat) (m : Bytes) : List Nat :=
  match fuel with
  | 0 => h
  | fuel + 1 =>
    let b := p.w / 8
    shaBlocks p fuel (shaBlock p h ((List.range 16).map fun i => fld m (b * i) b)) (m.drop (16 * b))

/-- The digest of a message. -/
def shaDigest (p : Sha) (m : Bytes) : Bytes :=
  let b := p.w / 8
  let size := 16 * b
  let z := (2 * size - 1 - 2 * b - m.length % size) % size
  let padded := m ++ [0x80#8] ++ List.replicate z 0 ++ be (2 * b) (8 * m.length)
  (shaBlocks p (padded.length / size) p.h padded).flatMap fun x => be b x

/-- SHA-256. -/
def sha256 (m : Bytes) : Bytes := shaDigest sha256Spec m

/-- SHA-512. -/
def sha512 (m : Bytes) : Bytes := shaDigest sha512Spec m

/-! ### Ed25519 (RFC 8032, section 5.1) -/

/-- The field prime. -/
def edP : Nat := 2 ^ 255 - 19
/-- The order of the base point. -/
def edL : Nat := 2 ^ 252 + 27742317777372353535851937790883648493

/-- A power modulo the field prime; `bits` bounds the exponent's length. -/
def edPow (bits x e : Nat) : Nat :=
  match bits with
  | 0 => 1
  | k + 1 =>
    let h := edPow k (x * x % edP) (e / 2)
    if e % 2 = 1 then x * h % edP else h

/-- The curve constant -121665/121666. -/
def edD : Nat := (edP - 121665) * edPow 256 121666 (edP - 2) % edP

/-- A point in extended coordinates. -/
structure EdPoint where
  x : Nat
  y : Nat
  z : Nat
  t : Nat

/-- Point addition. -/
def edAdd (a b : EdPoint) : EdPoint :=
  let sub := fun u v => (u + edP - v % edP) % edP
  let p := sub a.y a.x * sub b.y b.x % edP
  let q := (a.y + a.x) * (b.y + b.x) % edP
  let r := 2 * a.t * b.t % edP * edD % edP
  let d := 2 * a.z * b.z % edP
  let e := sub q p
  let f := sub d r
  let g := (d + r) % edP
  let h := (q + p) % edP
  { x := e * f % edP, y := g * h % edP, z := f * g % edP, t := e * h % edP }

/-- A multiple of a point; `bits` bounds the factor's length. -/
def edMul (bits n : Nat) (a : EdPoint) : EdPoint :=
  match bits with
  | 0 => { x := 0, y := 1, z := 1, t := 0 }
  | k + 1 =>
    let h := edMul k (n / 2) (edAdd a a)
    if n % 2 = 1 then edAdd a h else h

/-- Whether two points are equal. -/
def edEq (a b : EdPoint) : Bool := a.x * b.z % edP == b.x * a.z % edP && a.y * b.z % edP == b.y * a.z % edP

/-- A point from y and the sign of x; none where there is none. -/
def edRecover (y sign : Nat) : Option EdPoint :=
  let u := (y * y + edP - 1) % edP
  let v := (edD * (y * y % edP) + 1) % edP
  let v3 := v * v % edP * v % edP
  let v7 := v3 * v3 % edP * v % edP
  let x := u * v3 % edP * edPow 256 (u * v7 % edP) ((edP - 5) / 8) % edP
  let vxx := v * (x * x % edP) % edP
  let x? := if vxx = u then some x
    else if vxx = (edP - u) % edP then some (x * edPow 256 2 ((edP - 1) / 4) % edP) else none
  match x? with
  | none => none
  | some x =>
    if edP ≤ y ∨ (x = 0 ∧ sign = 1) then none
    else
      let x := if x % 2 = sign then x else edP - x
      some { x := x, y := y, z := 1, t := x * y % edP }

/-- The point that 32 bytes, least significant first, spell. -/
def edDecode (b : Bytes) : Option EdPoint :=
  let n := ofBe b.reverse
  edRecover (n % 2 ^ 255) (n / 2 ^ 255 % 2)

/-- Whether a signature verifies over a message: the group equation with the cofactor. -/
def edVerify (key sig msg : Bytes) : Bool :=
  let r := sig.take 32
  let sc := ofBe (sig.drop 32).reverse
  match edDecode key, edDecode r, edRecover (4 * edPow 256 5 (edP - 2) % edP) 0 with
  | some a, some rp, some base =>
    let k := ofBe (sha512 (r ++ key ++ msg)).reverse % edL
    decide (sc < edL) && edEq (edMul 4 8 (edMul 256 sc base)) (edMul 4 8 (edAdd rp (edMul 256 k a)))
  | _, _, _ => false

end Sys2Proof.Machine
end

