-- ==== Sys2Proof/Machine/Flash.lean ====
section
/-! DEFINITION. The boot flash: its copies, images, settings slots and activation records, the checks of an image, and the
image commands (19_boot_and_image.md R417 to R425). -/

namespace Sys2Proof.Machine

/-! ### The flash array -/

/-- Reads `n` bytes of the flash; erased bytes read 0xFF (log entry 3). -/
def flashRead (s : State) (a n : Nat) : Bytes := memRead 0xFF s.boot.flash a n

/-- Programs bytes into erased flash. -/
def flashWrite (a : Nat) (bs : Bytes) (s : State) : State :=
  { s with boot := { s.boot with flash := memWrite 0xFF s.boot.flash a bs } }

/-- Erases the bytes from `a` up to `a + n`. -/
def flashErase (a n : Nat) (s : State) : State :=
  { s with boot := { s.boot with flash := s.boot.flash.filter fun e => !(decide (a ≤ e.1) && decide (e.1 < a + n)) } }

/-- H of 19 R417: the size of one copy. -/
def copySize (s : State) : Nat := s.boot.flashSize / 2

/-- The size of the image area of a copy. -/
def imageArea (s : State) : Nat := copySize s - 136 * 1024

/-- The flash address of settings slot `i` of copy `c`. -/
def slotAddr (s : State) (c i : Nat) : Nat := c * copySize s + imageArea s + i * 65536

/-- The flash address of the activation record of copy `c`. -/
def recordAddr (s : State) (c : Nat) : Nat := (c + 1) * copySize s - 4096

/-- ACTIVATION of a copy's record, if the record is valid (19 R418). -/
def activation (s : State) (c : Nat) : Option Nat :=
  let r := flashRead s (recordAddr s c) 20
  if fld r 0 4 == 0x52414354 && fld r 8 1 == c && fld r 16 4 == crc32c (r.take 16) then some (fld r 4 4) else none

/-- The active copy: the valid record with the higher ACTIVATION (19 R418). -/
def activeCopy (s : State) : Option Nat :=
  match activation s 0, activation s 1 with
  | some a, some b => some (if a < b then 1 else 0)
  | some _, none => some 0
  | none, some _ => some 1
  | none, none => none

/-- The copy that holds the preset: the active copy, or copy 0 where neither record is valid. -/
def presetCopy (s : State) : Nat := (activeCopy s).getD 0

/-! ### The image (19 R419 to R421) -/

/-- The directory entries of the image of copy `c`. -/
def ryunosSections (s : State) (c : Nat) : List Section :=
  let b := flashRead s (c * copySize s) 96
  (List.range (fld b 6 2)).map fun i =>
    { kind := fld b (32 + 16 * i) 2, off := fld b (36 + 16 * i) 4, len := fld b (40 + 16 * i) 4, crc := fld b (44 + 16 * i) 4 }

/-- The bytes of the section of a type of copy `c`; none where it is absent. -/
def ryunosSection (s : State) (c kind : Nat) : Bytes :=
  match findSection (ryunosSections s c) kind with
  | some x => flashRead s (c * copySize s + x.off) x.len
  | none => []

/-- The directory: its sections start on multiples of 4 within IMAGE_SIZE, do not overlap and appear once each; each has the
length its type asks for, the entries of SETTINGS rise, and SIGNATURE is the last (19 R419). -/
def ryunosDirectoryOk (s : State) (c : Nat) : Bool :=
  let b := flashRead s (c * copySize s) 96
  let n := fld b 6 2
  let size := fld b 8 4
  let secs := ryunosSections s c
  let live := secs.filter fun x => x.len != 0
  decide (1 ≤ n) && decide (n ≤ 4) && decide (32 ≤ size) && decide (size ≤ imageArea s) && decide (32 + 16 * n ≤ size) &&
  (List.range n).all (fun i => fld b (34 + 16 * i) 2 == 0) &&
  secs.all (fun x => decide (1 ≤ x.kind) && decide (x.kind ≤ 4)) && allDiffer (secs.map (·.kind)) &&
  live.all (fun x => x.off % 4 == 0 && decide (32 + 16 * n ≤ x.off) && decide (x.off + x.len ≤ size)) &&
  live.all (fun x => live.all fun y => x.kind == y.kind || decide (x.off + x.len ≤ y.off) || decide (y.off + y.len ≤ x.off)) &&
  live.all (fun x => match x.kind with
    | 1 => decide (x.len ≤ 2097152)
    | 2 => x.len % 12 == 0
    | 3 => x.len % 4 == 0
    | _ => x.len == 96 && live.all fun y => decide (y.off ≤ x.off))

/-- Whether the keys of SETTINGS entries rise strictly. -/
def entriesRise (b : Bytes) : Bool :=
  let ks := (List.range (b.length / 12)).map fun i => fld b (12 * i) 2
  (ks.zip (ks.drop 1)).all fun e => decide (e.1 < e.2)

/-- The authentication of 19 R421: 0, or RESULT 7 or 8. -/
def ryunosAuth (s : State) (c : Nat) : Nat :=
  if !s.fuses.keySet then 0
  else match findSection (ryunosSections s c) 4 with
    | none => 7
    | some x =>
      let b := flashRead s (c * copySize s + x.off) 96
      if sha256 (b.take 32) ≠ s.fuses.keyHash then 7
      else if edVerify (b.take 32) (b.drop 32) (flashRead s (c * copySize s) x.off) then 0 else 8

/-- RESULT of Table 19.7 and the failing section's type, for the image of copy `c` (19 R420, R421). -/
def ryunosResult (s : State) (c : Nat) : Nat × Nat :=
  let b := flashRead s (c * copySize s) 32
  let v := fld b 5 1
  if fld b 0 4 ≠ 0x52594E53 ∨ fld b 4 1 ≠ 1 then (1, 0)
  else if crc32c (b.take 28) ≠ fld b 28 4 then (2, 0)
  else if v ≠ 0xFF ∧ v ≠ s.fuses.variant.ctorIdx then (3, 0)
  else if !ryunosDirectoryOk s c || !entriesRise (ryunosSection s c 2) then (4, 0)
  else match (ryunosSections s c).find? fun x =>
      x.len != 0 && crc32c (flashRead s (c * copySize s + x.off) x.len) != x.crc with
    | some x => (5, x.kind)
    | none =>
      if (findSection (ryunosSections s c) 1).isNone then (6, 1)
      else match ryunosAuth s c with
        | 0 => (0, 0)
        | r => (r, 4)

/-- The CRC-32C of image bytes 0 to IMAGE_SIZE - 1, where IMAGE_SIZE lies in its range. -/
def ryunosCrc (s : State) (c : Nat) : Option Nat :=
  let n := fld (flashRead s (c * copySize s) 32) 8 4
  if 32 ≤ n ∧ n ≤ imageArea s then some (crc32c (flashRead s (c * copySize s) n)) else none

/-- FW_VERSION of the image of copy `c`. -/
def ryunosVersion (s : State) (c : Nat) : Nat := fld (flashRead s (c * copySize s) 32) 12 4

/-- An authentication failure raises EV_BOOT_AUTH_FAIL (19 R421). -/
def authEvent (result : Nat) (s : State) : State := if result = 7 ∨ result = 8 then raise 1018 s else s

/-! ### Settings slots (19 R423) -/

/-- SEQ of a settings slot, if the slot is valid. -/
def slotSeq (s : State) (c i : Nat) : Option Nat :=
  let h := flashRead s (slotAddr s c i) 16
  let n := 12 * fld h 8 2
  if fld h 0 4 == 0x53455453 && decide (n ≤ 65520) && fld h 12 4 == crc32c (flashRead s (slotAddr s c i + 16) n)
  then some (fld h 4 4) else none

/-- The newest valid slot of a copy: its number and SEQ. -/
def newestSlot (s : State) (c : Nat) : Option (Nat × Nat) :=
  match slotSeq s c 0, slotSeq s c 1 with
  | some a, some b => some (if a < b then (1, b) else (0, a))
  | some a, none => some (0, a)
  | none, some b => some (1, b)
  | none, none => none

/-- Entries of the SETTINGS format as (key, VALUE field). -/
def settingEntries (b : Bytes) : Tab Nat := (List.range (b.length / 12)).map fun i => (fld b (12 * i) 2, fld b (12 * i + 4) 8)

/-- The bytes of SETTINGS entries. -/
def entryBytes (t : Tab Nat) : Bytes := t.flatMap fun e => be 2 e.1 ++ [0, 0] ++ be 8 e.2

/-- The entries of a copy's newest valid slot. -/
def slotEntries (s : State) (c : Nat) : Tab Nat :=
  match newestSlot s c with
  | some (i, _) =>
    let a := slotAddr s c i
    settingEntries (flashRead s (a + 16) (12 * fld (flashRead s a 16) 8 2))
  | none => []

/-- Erases a settings slot and writes it. -/
def writeSlot (c i seq : Nat) (t : Tab Nat) (s : State) : State :=
  let b := entryBytes t
  let a := slotAddr s c i
  flashWrite a (be 4 0x53455453 ++ be 4 seq ++ be 2 t.length ++ [0, 0] ++ be 4 (crc32c b) ++ b) (flashErase a 65536 s)

/-- The runtime values that a COMMIT_PRESET commits. -/
def presetValues (s : State) (keys : Option (List Nat)) : Tab Nat :=
  match keys with
  | none => s.set.runtime
  | some ks => s.set.runtime.filter fun e => ks.contains e.1

/-- The background of COMMIT_PRESET: the chosen values merged into the newest valid slot's entries, in the other slot, and
with them the image layer (00 R10, 13 R318, 19 R423); also COUNT and IMAGE_CRC. -/
def presetWritten (keys : Option (List Nat)) (s : State) : State × Bytes :=
  let values := presetValues s keys
  let c := presetCopy s
  let merged := values.foldl (fun t e => tput t e.1 e.2) (slotEntries s c)
  let out := be 2 values.length ++ [0, 0] ++ be 4 (crc32c (entryBytes merged))
  if values = [] then (s, out)
  else
    let s := match newestSlot s c with
      | some (i, seq) => writeSlot c (1 - i) (seq + 1) merged s
      | none => writeSlot c 0 1 merged s
    ({ s with set := { s.set with image := values.foldl (fun t e => tput t e.1 e.2) s.set.image } }, out)

/-- A flash operation times out or reports an error (19 R416). -/
def flashFailed (s : State) : State := raise 1021 s

/-! ### The image commands (19 R424, R425) -/

/-- IMAGE_WRITE. -/
def imageWrite (c : Ctx) (s : State) : Verdict :=
  let copy := fld c.p 0 1
  let off := fld c.p 4 4
  let data := c.p.drop 8
  if 1 < copy ∨ fld c.p 1 3 ≠ 0 ∨ (off ≠ 0 ∧ off ≠ tget s.boot.frontier copy 0) ∨ off % 4096 ≠ 0 ∨
     imageArea s < off + data.length then .no .badParam
  else if s.boot.copy = copy ∧ s.boot.complete = true then .no .badState
  else if s.flashHeld then .no .busy
  else .later (.imageWrite copy off data) id

/-- The background of IMAGE_WRITE: the sectors are erased and programmed. -/
def imageWritten (copy off : Nat) (data : Bytes) (s : State) : State × Bytes :=
  let s := if off = 0 then flashErase (recordAddr s copy) 4096 s else s
  let a := copy * copySize s + off
  let s := flashWrite a data (flashErase a ((data.length + 4095) / 4096 * 4096) s)
  ({ s with boot := { s.boot with frontier := tput s.boot.frontier copy (off + data.length)
                                  verified := tput s.boot.verified copy false } }, be 4 (off + data.length))

/-- The background of an IMAGE_WRITE that failed: the bytes that its sectors then hold are free values (log entry 5). -/
def imageWriteFailed (copy off : Nat) (data : Bytes) (s : State) : State :=
  let s := if off = 0 then flashErase (recordAddr s copy) 4096 s else s
  let n := (data.length + 4095) / 4096 * 4096
  let w := s.free
  let s := { s with free := w + n
                    boot := { s.boot with verified := tput s.boot.verified copy false } }
  flashFailed (flashWrite (copy * copySize s + off)
    ((List.range n).map fun i => (Config.freeWord (w + i)).truncate 8) s)

/-- IMAGE_VERIFY. -/
def imageVerify (c : Ctx) (s : State) : Verdict :=
  let copy := fld c.p 0 1
  if 1 < copy ∨ fld c.p 1 3 ≠ 0 then .no .badParam
  else if s.flashHeld then .no .busy
  else .later (.imageVerify copy) id

/-- The background of IMAGE_VERIFY: RESULT, section type and CRC; a CRC that no IMAGE_SIZE bounds is a free value. -/
def imageVerified (copy : Nat) (readFailed : Bool) (s : State) : State × Bytes :=
  let (result, kind) := if readFailed then (9, 0) else ryunosResult s copy
  let w := s.free
  let (crc, s) := match ryunosCrc s copy with
    | some x => (x, s)
    | none => ((Config.freeWord w).toNat, { s with free := w + 1 })
  let s := authEvent result { s with boot := { s.boot with verified := tput s.boot.verified copy (result == 0) } }
  (s, be 1 result ++ be 1 kind ++ [0, 0] ++ be 4 crc)

/-- Writes a copy's activation record, with the newest valid settings slot of the active copy before it (19 R424). -/
def activate (copy : Nat) (s : State) : State :=
  let top := max ((activation s 0).getD 0) ((activation s 1).getD 0)
  let s := match (activeCopy s).bind fun a => (newestSlot s a).map fun e => (a, e) with
    | some (a, (i, seq)) => writeSlot copy 0 seq (settingEntries
        (flashRead s (slotAddr s a i + 16) (12 * fld (flashRead s (slotAddr s a i) 16) 8 2))) s
    | none => s
  let s := flashErase (slotAddr s copy 1) 65536 s
  let r := be 4 0x52414354 ++ be 4 (top + 1) ++ be 1 copy ++ [0, 0, 0] ++ be 4 ((ryunosCrc s copy).getD 0)
  raise 1022 (flashWrite (recordAddr s copy) (r ++ be 4 (crc32c r)) (flashErase (recordAddr s copy) 4096 s))

/-- IMAGE_ACTIVATE. -/
def imageActivate (c : Ctx) (s : State) : Verdict :=
  let copy := fld c.p 0 1
  if 1 < copy ∨ fld c.p 1 3 ≠ 0 then .no .badParam
  else if s.flashHeld then .no .busy
  else if tget s.boot.verified copy false = false then .no .badState
  else if activeCopy s = some copy then .did id
  else .did (activate copy)

end Sys2Proof.Machine
end

