-- ==== Sys2Proof/Machine/Ringmasters.lean ====
section
/-! DEFINITION. The Ringmasters: watchdogs, heartbeats, epochs, takeover, shadow execution, self-test, switchover and repair
(14_ringmasters.md), with the end of a bus transaction whose master is reset (15_bus_matrix.md R362). -/

namespace Sys2Proof.Machine

/-! ### Bus counters and abandoned transactions (15 R357, R362, R363) -/

/-- The counters of a bus master in the order of 15 R363. -/
inductive BusCtr where
  | transactions | decodeErrors | denied | abandons | frozen | timeouts

/-- Counts one more of a master's bus counters. -/
def busCount (m : Nat) (c : BusCtr) (s : State) : State :=
  { s with bus := { s.bus with counters := tmod s.bus.counters (8 * m + c.ctorIdx) 0 (satInc 32) } }

/-- A write that the matrix denies (15 R357). -/
def busDenied (m : Nat) (s : State) : State := raise 914 (busCount m .denied s)

/-- Master `m` is reset: an outstanding transaction ends on its behalf, its port then idle until the master leaves reset. A request
that has not been granted, or is granted in this same cycle, is withdrawn and not counted (15 R362). -/
def busAbandon (m : Nat) (s : State) : State :=
  let idle := fun (s : State) => { s with bus := { s.bus with
    outstanding := tdel s.bus.outstanding m, requests := tdel s.bus.requests m
    portIdle := m :: s.bus.portIdle.filter (· ≠ m) } }
  match tfind s.bus.outstanding m with
  | some x =>
    if x.done = 0 ∧ x.since = s.cycle then
      idle { s with bus := { s.bus with counters := tmod s.bus.counters (8 * m) 0 fun n => n - 1 } }
    else raise 912 (busCount m .abandons (idle s))
  | none => if thas s.bus.requests m then idle s else s

/-- Master `m` leaves reset: its port accepts addresses again. -/
def busLeaveReset (m : Nat) (s : State) : State :=
  { s with bus := { s.bus with portIdle := s.bus.portIdle.filter (· ≠ m) } }

/-! ### Reset and restart of a unit (14 R330, R345; 15 R356; 19 R425) -/

/-- The location code of a unit. -/
def locUnit (u : Nat) : Bytes := locBlock .N u

/-- REMAP_u. -/
def setRemap (u : Nat) (on : Bool) (s : State) : State :=
  { s with bus := if u = 0 then { s.bus with remapA := on } else { s.bus with remapB := on } }

/-- Resets a unit: it is held in reset, REMAP_u clear (15 R356), its bus transaction abandoned. -/
def resetUnit (u : Nat) (s : State) : State :=
  busAbandon u (setRemap u false (s.onUnit u fun x =>
    { x with state := .off, inReset := true, claim := false, kickHalf := false, retryStep := none, shadowStop := false }))

/-- A unit that starts: SELFTESTS and MISMATCHES count from here (14 R343). -/
def CuUnit.started (x : CuUnit) : CuUnit :=
  { x with state := .booting, inReset := false, wdogExpired := false, selftests := 0, mismatches := 0, mismatchSinceCommit := false,
           cycleSteps := 0, cyclePassed := 0, cycleFailed := 0, retryStep := none, copyEpoch := 0, copyJsn := 0, shadowJsn := 0,
           repairDue := false, seesMailbox := true, seesWire := true, bothLost := false }

/-- Writes firmware into a unit's local memory at offset 0 (19 R419). -/
def loadLocal (u : Nat) (fw : Bytes) (s : State) : State :=
  { s with bus := if u = 0 then { s.bus with localA := memWrite 0 s.bus.localA 0 fw }
                  else { s.bus with localB := memWrite 0 s.bus.localB 0 fw } }

/-- Whether the running copy's firmware can be loaded: the recovery firmware always, a copy under its checks (19 R425). -/
def firmwareOk (s : State) : Bool := s.recovery || (ryunosResult s s.boot.copy).1 == 0

/-- Loads the firmware of the running copy into a unit and releases it (19 R425). -/
def startUnit (u : Nat) (s : State) : State :=
  let s := if s.recovery then s else loadLocal u (ryunosSection s s.boot.copy 1) s
  let version := if s.recovery then 0 else ryunosVersion s s.boot.copy
  busLeaveReset u (setRemap u true (s.onUnit u fun x => { x.started with firmware := version }))

/-- A restart fails: counted; at CU_REPAIR_ATTEMPTS in a row the unit is FAILED, before it it is restarted again
(14 R345). A CU_RESYNC of the unit ends. -/
def failRestart (u : Nat) (s : State) : State :=
  let s := s.onUnit u fun x => { x with restartFails := x.restartFails + 1, state := .off, inReset := true }
  let s := finishWork (fun w => w == .resync u) .hwFault [] s
  let limit := s.eff 0x0E05
  if limit ≠ 0 ∧ limit ≤ (s.unit u).restartFails then s.onUnit u fun x => { x with state := .failed, repairDue := false }
  else s.onUnit u fun x => { x with repairDue := limit != 0 || s.cu.noHolder }

/-- EV_CU_REPAIR_FAILED of a unit that its last restart has put out of service. -/
def repairFailed (u : Nat) (s : State) : State := if (s.unit u).state = .failed then raise 906 s else s

/-- Restarts a unit: the firmware is loaded again and the unit starts, or the restart fails. -/
def restartUnit (u : Nat) (flashBad : Bool) (s : State) : State :=
  let s := s.onUnit u fun x => { x with repairing := true, reclaimDue := true }
  if !flashBad && firmwareOk s then startUnit u s
  else repairFailed u (failRestart u (authEvent (if s.recovery then 0 else (ryunosResult s s.boot.copy).1) s))

/-- Whether a unit's state allows it to claim the baton (14 Table 14.1). -/
def canClaim (s : State) (u : Nat) : Bool :=
  match (s.unit u).state with
  | .standby | .isolated => true
  | .syncing => s.cu.noHolder
  | _ => false

/-- The baton is free and no unit can claim it: EV_CU_NO_HOLDER, FAULT_N, and every unit that is not FAILED is restarted at
once (14 R340). -/
def noHolderCheck (s : State) : State :=
  if s.cu.held || !s.cu.passing || s.cu.noHolder || canClaim s 0 || canClaim s 1 then s
  else
    let s := raise 904 { s with cu := { s.cu with noHolder := true, switchover := none } }
    [0, 1].foldl (fun s u => if (s.unit u).state = .failed then s else restartUnit u false (resetUnit u s)) s

/-- A unit leaves service: if it holds the baton, the baton is free and is passing (14 R328). -/
def freeBaton (u : Nat) (s : State) : State :=
  if s.cu.held ∧ s.cu.holder = u then
    serverGone { s with cu := { s.cu with held := false, passing := true, copying := none, switchover := none } }
  else s

/-- The watchdog of unit `u` expires: reset, EV_CU_WDOG_EXPIRED with its fault, and the baton free if the unit held it; before
a restarted unit is in STANDBY it fails the restart (14 R330, R345). -/
def watchdogExpiry (u : Nat) (s : State) : State :=
  let x := s.unit u
  if 1 < u ∨ x.inReset = true then s
  else
    let s := raiseFault 898 { loc := locUnit u } (s.onUnit u fun x => { x with wdogExpired := true })
    let s := freeBaton u (resetUnit u s)
    if x.repairing then repairFailed u (noHolderCheck (failRestart u s))
    else noHolderCheck (s.onUnit u fun x => { x with repairDue := s.eff 0x0E05 != 0 || s.cu.noHolder })

/-- WATCHDOG_EXPIRY: CU_WDOG_MS passes without a restart of the watchdog. -/
def execWatchdogExpiry (u : Nat) (s : State) : Host.Outcome State Fault Refusal :=
  .next (if s.boot.porstLow then s else watchdogExpiry u s)

/-- A write of a unit's WDOG_KICK by a master: 0x5A, then 0xA5 (14 R330). -/
def wdogKick (m u value : Nat) (s : State) : State :=
  if m ≠ u ∧ m ≤ 1 then busDenied m s
  else if value = 0xA5 ∧ (s.unit u).kickHalf = true then s.onUnit u fun x => { x with kickHalf := false }
  else s.onUnit u fun x =>
    { x with kickHalf := value == 0x5A
             badKicks := if value = 0x5A ∧ x.kickHalf = false then x.badKicks else satInc 32 x.badKicks }

/-- Whether both units are FAILED: only PORST_N restores control (14 R340). -/
def State.bothFailed (s : State) : Bool := (s.unit 0).state == .failed && (s.unit 1).state == .failed

/-- UNIT_RESTART: CU_RESET_HOLD_MS has passed for a unit held in reset; `flashBad` says that reading the firmware fails
(14 R345, 19 R425). -/
def execUnitRestart (u : Nat) (flashBad : Bool) (s : State) : Host.Outcome State Fault Refusal :=
  .next (if u ≤ 1 ∧ s.ctlLive = true ∧ (s.unit u).repairDue = true ∧ s.bothFailed = false then noHolderCheck (restartUnit u flashBad s) else s)

/-- STARTUP_SELFTEST_COMPLETE: a unit's boot and start-up self-test end (14 R345). -/
def execStartupSelftestComplete (u : Nat) (passed : Bool) (s : State) : Host.Outcome State Fault Refusal :=
  .next (
    if u ≤ 1 ∧ s.ctlLive = true ∧ (s.unit u).state = .booting then
      if passed then s.onUnit u fun x => { x with state := .syncing }
      else repairFailed u (noHolderCheck (failRestart u (resetUnit u s)))
    else s)

/-! ### Heartbeats (14 R331 to R333) -/

/-- Sets what a unit sees of a path: 0 mailbox, 1 wire. -/
def setPath (u path : Nat) (v : Bool) (s : State) : State :=
  s.onUnit u fun x => if path = 0 then { x with seesMailbox := v } else { x with seesWire := v }

/-- Whether a unit sees a path. -/
def CuUnit.sees (x : CuUnit) (path : Nat) : Bool := if path = 0 then x.seesMailbox else x.seesWire

/-- A unit declares a path lost (14 R332, R333). -/
def pathLost (u path : Nat) (s : State) : State :=
  let s := setPath u path false s
  let x := s.unit u
  if x.seesMailbox || x.seesWire then raise 899 s
  else
  let s := s.onUnit u fun x => { x with bothLost := true }
  if s.cu.held ∧ s.cu.holder = u then raise 900 s
  else if x.state = .standby then
    raiseFault 900 { loc := locUnit u, unit := u } (s.onUnit u fun x => { x with state := .isolated, claim := true })
  else s

/-- HEARTBEAT_PATH_LOST: unit `u` has seen no change on a path for CU_HB_MISS periods. -/
def execHeartbeatPathLost (u path : Nat) (s : State) : Host.Outcome State Fault Refusal :=
  .next (if u ≤ 1 ∧ path ≤ 1 ∧ s.ctlLive = true ∧ (s.unit u).runs = true ∧ (s.unit u).sees path = true then pathLost u path s
    else s)

/-- Whether a holder is there that can write an epoch. -/
def State.canCopy (s : State) : Bool :=
  s.cu.held && (s.unit s.cu.holder).state == .active && s.cu.copying.isNone

/-- The holder writes an epoch now, if it can. -/
def holderEpoch (s : State) : State := if s.canCopy then writeEpoch s else s

/-- Starts a switchover: the holder writes epoch e (14 R344, R347). -/
def startSwitchover (reclaim : Bool) (s : State) : State :=
  let e := s.cu.nextEpoch
  let s := holderEpoch s
  { s with cu := { s.cu with switchover := some { epoch := e, committed := false, reclaim := reclaim } } }

/-- Unit A's reclaim at its first commit, once both heartbeat paths are up (14 R347). -/
def reclaimCheck (s : State) : State :=
  let a := s.unit 0
  if a.reclaimDue && a.state == .standby && s.eff 0x0E00 == 1 && s.cu.held && s.cu.holder == 1 && a.seesMailbox &&
     a.seesWire && !a.mismatchSinceCommit && s.cu.switchover.isNone then
    startSwitchover true (s.onUnit 0 fun x => { x with reclaimDue := false })
  else s

/-- HEARTBEAT_PATH_BACK: unit `u` has seen changes on a path in CU_HB_MISS periods. A holder that had lost both and sees both back
writes an epoch at once (14 R331, R333). -/
def execHeartbeatPathBack (u path : Nat) (s : State) : Host.Outcome State Fault Refusal :=
  .next (
    if u ≤ 1 ∧ path ≤ 1 ∧ s.ctlLive = true ∧ (s.unit u).runs = true ∧ (s.unit u).sees path = false then
      let s := setPath u path true s
      let x := s.unit u
      if x.seesMailbox && x.seesWire then
        let s := s.onUnit u fun x => { x with bothLost := false }
        reclaimCheck (if s.cu.held ∧ s.cu.holder = u ∧ x.bothLost = true then holderEpoch s else s)
      else reclaimCheck s
    else s)

/-! ### Epochs (14 R336 to R338) -/

/-- EPOCH_COPY: the holder writes an epoch; where it stops in the middle, the buffer has no MAGIC and commands wait
(14 R337). -/
def execEpochCopy (whole : Bool) (s : State) : Host.Outcome State Fault Refusal :=
  .next (
    if s.ctlLive && s.canCopy then
      if whole then writeEpoch s
      else
        let first := epochBase s.epochTarget / 4
        serverGone (overwriteGroup first (first + 1) { s with cu := { s.cu with
            copying := some s.cu.nextEpoch
            buffers := tmod s.cu.buffers s.epochTarget {} fun b => { b with complete := false, magic := false } } })
    else s)

/-- Commits an epoch to a unit's shadow state (14 R338). -/
def commitEpoch (u : Nat) (b : EpochBuffer) (s : State) : State :=
  let x := s.unit u
  let s := s.onUnit u fun x =>
    { x with copyEpoch := b.number, commitWord := b.number, copyJsn := b.jsn, shadowJsn := b.jsn, mismatchSinceCommit := false
             shadowStop := false }
  let s := { s with cu := { s.cu with shadows := tput s.cu.shadows u b.body } }
  let s := if x.state = .standby then s
    else
      let s := raise 905 (s.onUnit u fun x =>
        { x with state := .standby, claim := false, restartFails := 0, repairing := false })
      reclaimCheck (finishWork (fun w => w == .resync u) .ok (be 4 b.number) s)
  let s := if u = 0 ∧ x.state ≠ .standby ∧ x.seesMailbox = true ∧ x.seesWire = true then
      s.onUnit 0 fun x => { x with reclaimDue := false } else s
  match s.cu.switchover with
  | some w => if w.epoch ≤ b.number then serverGone { s with cu := { s.cu with switchover := some { w with committed := true } } }
    else s
  | none => s

/-- EPOCH_COMMIT: the non-holder commits the newest complete epoch; `bad` says that the buffer it reads fails its checks, which
makes it incomplete (14 R338). -/
def execEpochCommit (u : Nat) (bad : Bool) (s : State) : Host.Outcome State Fault Refusal :=
  .next (
    let x := s.unit u
    let may := match x.state with
      | .syncing | .standby => true
      | .isolated => x.seesMailbox && x.seesWire
      | _ => false
    if u ≤ 1 ∧ s.ctlLive = true ∧ s.cu.held = true ∧ s.cu.holder ≠ u ∧ may = true then
      match s.newestEpoch with
      | some b =>
        if bad then
          let spoil := fun (e : EpochBuffer) => { e with complete := e.complete && e.number != b.number }
          raise 903 { s with cu := { s.cu with buffers := s.cu.buffers.map fun e => (e.1, spoil e.2) } }
        else if b.writer = s.cu.holder ∧ x.copyEpoch < b.number then commitEpoch u b s else s
      | none => s
    else s)

/-! ### The baton (14 R328, R339, R344) -/

/-- The holder's release: the baton passes to the other unit, which must be in STANDBY, in a switchover once it has committed the
epoch (14 R328, R344). -/
def releaseBaton (s : State) : State :=
  let u := s.cu.holder
  if s.cu.held && (s.unit (1 - u)).state == .standby && (s.cu.switchover.isNone || s.releaseDue) then
    let s := s.onUnit u fun x => { x with state := .syncing, claim := false, copyEpoch := 0 }
    serverGone { s with cu := { s.cu with held := false, passing := true } }
  else s

/-- Whether every COMMAND entry above an epoch has its record in the command store, with its digest (14 R339 step 2). -/
def replayOk (s : State) (jsn : Nat) : Bool :=
  s.cmd.journal.all fun e =>
    e.jsn ≤ jsn || e.kind != 0 ||
      s.cu.store.any fun r => r.jsn == e.jsn && (if r.params = [] then 0 else crc32c r.params) == e.digest

/-- The pending commands of Table 14.6 that end or restart when unit `u` becomes the holder. -/
def takeOverPending (u : Nat) (s : State) : State :=
  let s := finishWork (fun w => w == .switchover) .ok (be 1 u ++ [0, 0, 0]) s
  let s := finishWork (fun w => w == .resync u) .hwFault [] s
  if s.working (fun w => w == .resync (1 - u)) ∧ (s.unit (1 - u)).inReset = true then restartUnit (1 - u) false s else s

/-- A TAKEOVER entry (13 Table 13.11). -/
def takeoverEntry (u epoch : Nat) (s : State) : State :=
  writeEntry .takeover 0 0 0 0 u 0 0 3 (be 1 u ++ [0, 0, 0] ++ be 4 epoch) s

/-- Unit `u` has the baton. -/
def holdBaton (u : Nat) (s : State) : State :=
  let s := s.onUnit u fun x => { x with state := .takingOver, claim := false }
  { s with cu := { s.cu with held := true, holder := u } }

/-- Unit `u` gains the baton and is ACTIVE; a restart that has come this far has not failed. -/
def gainBaton (u : Nat) (s : State) : State :=
  let s := s.onUnit u fun x => { x with state := .active, claim := false, cycleSteps := 0, cyclePassed := 0, cycleFailed := 0,
                                        retryStep := none, repairing := false, restartFails := 0 }
  { s with cu := { s.cu with held := true, holder := u, passing := false, noHolder := false } }

/-- The COMMAND entry above EFFECT_JSN, the newest if there is one, with its record (14 R335, R339). -/
def State.uncovered (s : State) : Option (JournalEntry × StoreRecord) :=
  match s.cmd.journal.find? fun e => e.kind == 0 with
  | some e =>
    if e.jsn ≤ s.cu.effectJsn then none
    else (s.cu.store.find? fun r => r.jsn == e.jsn).map fun r => (e, r)
  | none => none

/-- Executes in full the command of an entry above EFFECT_JSN: its effect, with its trigger write, and its reply, which is cached
with the session's H (14 R339 steps 2 and 3). The journal names no source for a command without a session, so that a HELLO is not
executed again (log entry 63). -/
def executeAgain (handle : Ctx → State → Verdict) (u : Nat) (e : JournalEntry) (r : StoreRecord) (s : State) : State :=
  match opOf e.opcode, (s.session (e.session % 8)).origin with
  | some op, some o =>
    let c : Ctx :=
      { hdr := { origin := o, retransmit := false, toStandby := false, seq := BitVec.ofNat 32 e.seq, session := BitVec.ofNat 16 e.session }
        op := op, p := r.params, unit := u }
    let keep := fun (isPending : Bool) (x : Reply) (s : State) => match s.findSession e.session o with
      | some i => s.onSession i fun y => if (y.cached e.seq).isSome then y.complete e.seq x else y.consume e.seq isPending x
      | none => s
    match handle c s with
    | .done act =>
      let (s, params) := act s
      let x := c.reply .ok e.jsn params
      closeOrOpen c (s.findSession e.session o) x (keep false x (commitEffect c e.jsn s))
    | .awaits act =>
      let s := commitEffect c e.jsn (act s)
      { s with cmd := { s.cmd with awaited := some (s.findSession e.session o, c.reply .ok e.jsn []) } }
    | .later work act after =>
      let s := commitEffect c e.jsn (act (if s.cmd.pending.any fun x => x == c.pendingOf work then s else addPending (c.pendingOf work) s))
      after (keep true (c.reply .acceptedPending e.jsn []) s)
    | .reject _ _ | .rejectWith _ _ => s
  | _, _ => s

/-- Unit `u` takes a free baton over: after a release it completes the switchover; after a watchdog expiry it restores the state of
the newest complete epoch and the records above it in TAKING_OVER, and is ACTIVE with the next epoch written (14 R339, R344, R347).
The model holds the firmware state once, so that the restored state is the state as it stands (log entry 63). -/
def takeOver (handle : Ctx → State → Verdict) (u : Nat) (s : State) : State :=
  let s := { s with cu := { s.cu with passes := (s.cu.passes + 1) % 2 ^ 16 } }
  let epoch := match s.newestEpoch with | some b => b.number | none => 0
  match s.cu.switchover with
  | some w =>
    let s := takeoverEntry u w.epoch (holdBaton u s)
    let s := gainBaton u { s with cu := { s.cu with switchover := none, switchovers := satInc 32 s.cu.switchovers } }
    let s := raise 897 s
    takeOverPending u (if w.reclaim then raise 907 s else s)
  | none =>
    let s := holdBaton u s
    if replayOk s (match s.newestEpoch with | some b => b.jsn | none => 0) then
      let s := match s.uncovered with
        | some (e, r) => executeAgain handle u e r s
        | none => s
      let s := takeoverEntry u epoch (takeOverPending u s)
      writeEpoch (raise 896 (gainBaton u s))
    else
      let s := s.onUnit u fun x => { x with state := .failed }
      noHolderCheck { s with cu := { s.cu with held := false, passing := true } }

/-- SWITCHOVER_TIMEOUT: no commit of epoch e arrives in 5 ms (14 R344). -/
def execSwitchoverTimeout (s : State) : Host.Outcome State Fault Refusal :=
  .next (match s.cu.switchover with
    | some w => if w.committed then s
      else finishWork (fun w => w == .switchover) .hwFault [] { s with cu := { s.cu with switchover := none } }
    | none => s)

/-! ### Shadow execution and self-test (14 R341, R342) -/

/-- The next record that a standby has not shadowed. -/
def nextShadow (s : State) (u : Nat) : Option StoreRecord :=
  s.cu.store.reverse.find? fun r => decide ((s.unit u).shadowJsn < r.jsn)

/-- SHADOW_EXECUTE: the standby executes the next record on its shadow state; `differs` says that its digest is another
(14 R341). A record overwritten before it stops the shadowing until the next commit. -/
def execShadowExecute (u : Nat) (differs : Bool) (s : State) : Host.Outcome State Fault Refusal :=
  .next (
    let x := s.unit u
    if u ≤ 1 ∧ s.ctlLive = true ∧ s.cu.holder ≠ u ∧ x.state = .standby ∧ x.shadowStop = false then
      if x.shadowJsn < s.cu.storeLost then
        s.onUnit u fun x => { x with shadowStop := true, overruns := satInc 32 x.overruns }
      else match nextShadow s u with
        | some r =>
          let s := s.onUnit u fun x => { x with shadowJsn := r.jsn, shadowed := x.shadowed + 1 }
          if differs then
            holderEpoch (raise 901 (s.onUnit u fun x =>
              { x with mismatches := satInc 32 x.mismatches, lastMismatch := r.jsn, mismatchSinceCommit := true
                       mismatchTimes := s.cycle :: x.mismatchTimes }))
          else s
        | none => s
    else s)

/-- The steps of a unit's self-test plan: five on the standby, two on the holder. -/
def planSteps (s : State) (u : Nat) : Nat := if s.cu.held ∧ s.cu.holder = u then 2 else 5

/-- A step of the plan ends, and with the last one the cycle. -/
def planStep (passed : Bool) (n : Nat) (x : CuUnit) : CuUnit :=
  let x := { x with retryStep := none, cycleSteps := x.cycleSteps + 1, cyclePassed := x.cyclePassed + b2n passed
                    selftests := x.selftests + b2n passed }
  if x.cycleSteps < n then x
  else { x with coverage := x.cyclePassed * 10000 / n, failedSteps := x.cycleFailed, cycleSteps := 0, cyclePassed := 0
                cycleFailed := 0 }

/-- The final reply of a SELFTEST of scope 0: the steps passed and failed, and the unit where one failed (13 Table 13.9). -/
def cycleReport (passed failed : Nat) (u : Option Nat) : Bytes :=
  be 4 passed ++ be 4 failed ++ padTo 28 (match u with | some k => locUnit k | none => [])

/-- A cycle of the standby's plan ends, and a SELFTEST of scope 0 with it (14 R342). -/
def cycleEnds (u : Nat) (before : CuUnit) (passed : Bool) (s : State) : State :=
  if (s.unit u).cycleSteps = 0 ∧ s.standby = some u then
    finishWork (fun w => match w with | .selftest 0 _ _ => true | _ => false) .ok
      (cycleReport (before.cyclePassed + b2n passed) 0 none) s
  else s

/-- A second failure of a step: the unit is FAILED, EV_CU_SELFTEST_FAIL with its fault; it is held in reset for repair unless
it holds the baton, which only its watchdog frees (14 R342, R345). -/
def selftestFailed (u : Nat) (s : State) : State :=
  let s := raiseFault 902 { loc := locUnit u, unit := u } s
  let s := finishWork (fun w => w == .resync u) .hwFault [] s
  let s := finishWork (fun w => match w with | .selftest 0 _ _ => s.standby == some u | _ => false) .ok
    (cycleReport (s.unit u).cyclePassed 1 (some u)) s
  if s.cu.held ∧ s.cu.holder = u then s.onUnit u fun x => { x with state := .failed, retryStep := none }
  else noHolderCheck ((resetUnit u s).onUnit u fun x => { x with state := .failed, repairDue := s.eff 0x0E05 != 0 })

/-- SELFTEST_CYCLE_STEP: a unit in service runs the next step of its plan; a failed step is run again once. -/
def execSelftestCycleStep (u : Nat) (passed : Bool) (s : State) : Host.Outcome State Fault Refusal :=
  .next (
    let x := s.unit u
    if u ≤ 1 ∧ s.ctlLive = true ∧ (x.state = .standby ∨ x.state = .isolated ∨ x.state = .active) then
      if passed then cycleEnds u x true (s.onUnit u (planStep true (planSteps s u)))
      else if x.retryStep.isNone then
        s.onUnit u fun x => { x with retryStep := some x.cycleSteps, cycleFailed := x.cycleFailed + 1 }
      else selftestFailed u s
    else s)

/-! ### The commands (13 Table 13.8) -/

/-- The state of a unit as CU_STATUS of unit `me` gives it: a holder that sees neither path reports the other unit ISOLATED
(14 R333). -/
def reportedState (s : State) (me u : Nat) : Nat :=
  let h := s.unit s.cu.holder
  if me = s.cu.holder ∧ u ≠ me ∧ s.cu.held = true ∧ h.seesMailbox = false ∧ h.seesWire = false
  then CuState.isolated.ctorIdx else (s.unit u).state.ctorIdx

/-- CU_STATUS. -/
def cuStatus (c : Ctx) (s : State) : Verdict :=
  let me := s.unit c.unit
  let other := s.unit (1 - s.cu.holder)
  .answer (be 1 s.cu.holder ++ be 1 (reportedState s c.unit 0) ++ be 1 (reportedState s c.unit 1) ++ be 1 (s.eff 0x0E00) ++
    be 1 (b2n me.seesMailbox + 2 * b2n me.seesWire) ++ [0, 0, 0] ++ be 4 other.copyEpoch ++ be 8 other.copyJsn ++
    be 4 s.cu.switchovers)

/-- The health score of a unit (14 R343); a core cycle is 1 ns. -/
def cuScore (s : State) (u : Nat) : Nat :=
  let x := s.unit u
  if x.state = .failed ∨ x.state = .off then 0
  else
    let m := (x.mismatchTimes.filter fun t => decide (s.cycle < t + 3600 * 10 ^ 9)).length
    x.coverage / 100 - 10 * (if s.cu.held ∧ s.cu.holder = u then 0 else m) - 25 * x.failedSteps -
      20 * (b2n (!x.seesMailbox) + b2n (!x.seesWire))

/-- CU_HEALTH. -/
def cuHealth (c : Ctx) (s : State) : Verdict :=
  let u := fld c.p 0 1
  if 1 < u ∨ fld c.p 1 3 ≠ 0 then .no .badParam
  else
    let x := s.unit u
    let holds := s.cu.held && s.cu.holder == u
    .answer (be 1 (cuScore s u) ++ [0, 0, 0] ++ be 8 x.selftests ++ be 4 x.coverage ++
      be 8 (if holds then 0 else x.shadowed) ++ be 4 (if holds then 0 else x.mismatches) ++ be 8 x.lastMismatch)

/-- CU_SWITCHOVER (14 R344). -/
def cuSwitchover (_ : Ctx) (s : State) : Verdict :=
  let other := s.unit (1 - s.cu.holder)
  if s.cu.switchover.isSome then .no .busy
  else if other.state ≠ .standby ∨ other.mismatchSinceCommit = true then .no .badState
  else .later .switchover id (startSwitchover false)

/-- CU_RESYNC (14 R346). -/
def cuResync (c : Ctx) (s : State) : Verdict :=
  let u := fld c.p 0 1
  if 1 < u ∨ fld c.p 1 3 ≠ 0 then .no .badParam
  else if s.cu.holder = u then .no .badState
  else if s.working (fun w => w == .resync u) then .no .busy
  else .later (.resync u) (fun s => (resetUnit u s).onUnit u fun x => { x with restartFails := 0 })
    fun s => holderEpoch (restartUnit u false s)

/-- Both units unpowered, the baton with no one (17 Table 1.2). -/
def unitsOff (s : State) : State :=
  let s := [0, 1].foldl (fun s u => (resetUnit u s).onUnit u fun x =>
    { x with wdogExpired := false, repairDue := false, repairing := false, restartFails := 0, reclaimDue := false }) s
  { s with cu := { s.cu with held := false, passing := false, noHolder := false, switchover := none, copying := none } }

end Sys2Proof.Machine
end

