-- ==== Sys2Proof/Machine/Power.lean ====
section
/-! DEFINITION. Power states, the sleep handshake, waking, supply shedding, the monitors and the clocks
(17_power_and_sleep.md). -/

namespace Sys2Proof.Machine

/-- The power state of a code (17 Table 17.8). -/
def powerOf (k : Nat) : PowerState :=
  match k with | 0 => .active | 1 => .idle | 2 => .doze | _ => .sleep

/-- The reply parameters of RESUME. -/
def resumeReply (s : State) : Bytes := be 1 s.pwr.stage ++ [0, 0, 0]

/-- The HBM's short training after the undoing of shedding stage 4 has come to an end: the RESUME that waits for it replies with the
stage (17 R396; log entry 156). -/
def resumeEnds (st : Status) (s : State) : State :=
  endAwaited st (if st = .ok then resumeReply s else []) { s with pwr := { s.pwr with hbmResume := false, attempt := 0 } }

/-- The blocks that a transition asks, ascending (17 Table 17.1). -/
def handshakeBlocks (from' to' : PowerState) : List Nat :=
  match from', to' with
  | .active, .idle => [1]
  | .active, .doze | .idle, .doze => [1, 2, 3, 4, 6, 7, 8]
  | .active, .sleep | .idle, .sleep => [1, 2, 3, 4, 5, 6, 7, 8]
  | .doze, .sleep => [2, 4, 5, 6, 8]
  | _, _ => []

/-- Completes the ENTER_POWER_STATE that the transition came from, if it was commanded. -/
def powerReply (st : Status) (result block code : Nat) (s : State) : State :=
  finishWork (fun w => match w with | .powerState _ => true | _ => false) st (be 1 result ++ be 1 block ++ be 1 code ++ [0]) s

/-- Ends the transition in progress. -/
def Power.ended (p : Power) : Power :=
  { p with busy := false, target := p.state, block := 0, wakeStep := 0, attempt := 0, agreed := [], commanded := false,
           rollback := none }

/-! ### The domains (01 Table 1.2, R17) -/

/-- The channeliser, the Carousel and the engines are not powered. -/
def datapathOff (s : State) : State :=
  { s with engines := [], car := {}, ch := {}, beams := [], finishes := [], powers := [] }

/-- The bases without time: DISABLED with source 0, otherwise UNSET; the last epoch ids are kept (02 R20, R21). -/
def basesUnset (s : State) : State :=
  (List.range 4).foldl (fun s n =>
    let w := s.free
    let off := s.tbKey n 0 == 0
    ({ s with free := w + 1 }).onTb n fun b =>
      { mode := if off then .disabled else .unset, lastEpoch := b.lastEpoch
        count := if off then 0 else (Config.freeWord w).toNat * nsUnit }) s

/-- A pending command whose unit loses its state ends with HW_FAULT. -/
def failLost (s : State) : State :=
  finishAll (fun w => match w with | .powerState _ | .commitPreset _ | .imageWrite .. | .imageVerify _ => false | _ => true)
    .hwFault [] s

/-- The domain configuration of SLEEP: the always-on domain alone keeps its state (01 R17; 14 R334; 11 R248). -/
def sleepDomains (s : State) : State :=
  let s := loadStops .hwFault (if s.pwr.hbmResume then resumeEnds .hwFault s else s)
  let s := busAbandon 3 (busAbandon 2 (unitsOff (failLost (mpRate false (datapathOff s)))))
  let lanes := (List.range (halfPortsOf s.fuses.variant)).map fun h => (h, { ({} : HalfPort) with stopped := true })
  { s with
      hps := lanes, ing := {}, ct := {}, cap := {}, hbm := {}, prg := {}, orb := {}, dma := {}, cal := {}, alarms := []
      streams := []
      tbs := (List.range 4).map fun n => (n, { ({} : TimeBase) with lastEpoch := (s.tb n).lastEpoch })
      bus := { retained := s.bus.retained, closed := s.bus.closed }
      pwr := { s.pwr with ctlOn := false, hbmTrained := false, hbmResume := false } }

/-- The keys that take effect at an entry to DOZE or SLEEP (17 R388, R400). -/
def latchKeys (to' : PowerState) (s : State) : State :=
  { s with pwr := { s.pwr with
      retainMask := if to' = .sleep then s.eff 0x0B03 else s.pwr.retainMask
      wakeMask := s.eff 0x0B01, sbWakeAddr := s.eff 0x0B02, slowSrc := s.eff 0x0B04, wakeTb := s.eff 0x0B05
      slowXtal := s.pwr.slowXtal && s.eff 0x0B04 == 0 } }

/-- The device is in a lower state. -/
def enterLow (to' : PowerState) (s : State) : State :=
  let s := match to' with
    | .doze => latchKeys .doze (datapathOff s)
    | .sleep => sleepDomains (latchKeys .sleep s)
    | _ => s
  { s with pwr := { s.pwr with state := to', transitions := satInc 32 s.pwr.transitions } }

/-! ### The handshake (17 R385 to R387) -/

/-- The reason for which a block refuses now; none where it agrees (17 Table 17.2). -/
def blockReason (s : State) (block : Nat) : Option Nat :=
  match block with
  | 1 => if s.heldSlots.isEmpty then none else some 0x01
  | 2 =>
    if s.working (fun w => match w with | .powerState _ => false | _ => true) then some 0x02
    else if s.cu.passing then some 0x03 else none
  | 3 =>
    if (List.range 62).any fun c => (s.dch c).state == 1 || (s.dch c).state == 3 then some 0x04 else none
  | 4 => if s.hps.any fun e => e.2.scanLane.isSome then some 0x07 else none
  | 6 =>
    if s.hbm.state = 1 then some 0x05
    else if s.pwr.target = .sleep ∧ s.cap.state = 3 then some 0x06 else none
  | _ => none

/-- The HBM in self-refresh, after an all-bank refresh; contents are kept. A short training under way is given up (07 R173), and a load
that channel 62 writes ends, as one that finds the HBM so does (log entry 142). -/
def hbmRest (s : State) : State :=
  let s := loadStops .badState { s with hbm := { s.hbm with queue := [], ordered := [] } }
  let s := if s.hbm.state = 0 ∨ (s.hbm.state = 2 ∧ s.pwr.hbmResume = true) then
      { s with hbm := { s.hbm with state := 3, allRefreshes := s.hbm.allRefreshes + 1 } }
    else s
  if s.pwr.hbmResume then resumeEnds .ok s else s

/-- A block stops. -/
def stopBlock (block : Nat) (s : State) : State :=
  match block with
  | 2 => if s.pwr.target = .sleep then holderEpoch s else s
  | 4 => stopLanes (s.pwr.target == .sleep) s
  | 5 => calForceAll 2 s
  | 6 =>
    if s.pwr.target = .sleep then
      { s with
        hbm := { s.hbm with state := 4, mem := [], undef := [] }
        pwr := { s.pwr with hbmTrained := false } }
    else hbmRest s
  | 7 => mpRate false s
  | _ => s

/-- The handshake has succeeded: the new state is entered, and the command completes with RESULT 0. -/
def finishEntry (s : State) : State :=
  let s := enterLow s.pwr.target s
  powerReply .ok 0 0 0 { s with pwr := s.pwr.ended }

/-- A block agrees, and the next one is asked. -/
def blockAgrees (block : Nat) (s : State) : State :=
  let s := stopBlock block s
  let s := { s with pwr := { s.pwr with agreed := block :: s.pwr.agreed } }
  match (handshakeBlocks s.pwr.state s.pwr.target).find? (block < ·) with
  | some k => { s with pwr := { s.pwr with block := k } }
  | none => finishEntry { s with pwr := { s.pwr with block := 0 } }

/-- The stopped half-ports that can idle are in electrical idle: in DOZE, and in stage 4 after stage 5 (01 Table 1.2; 17 R395). -/
def idleLanes (s : State) : State :=
  { s with hps := s.hps.map fun e =>
      let cfg := s.hpConfig e.1
      if e.2.stopped && e.2.state == .off && canIdle cfg && !s.waitsPartner e.1 then
        (e.1, { e.2 with state := .idle, txIdle := true, rxIdle := true, idleHold := true, trained := cfg })
      else e }

/-- A block restarts, unless the shedding stage in force stops it itself (17 R386, R387). -/
def restartBlock (s : State) (block : Nat) : State :=
  match block with
  | 7 => mpRate s.pwr.state.awake s
  | 4 => if 4 ≤ s.pwr.stage then s else if s.pwr.state = .doze then idleLanes s else restartLanes false s
  | _ => s

/-- The rollback has ended: the device is back in its previous state, and the command is refused. -/
def finishRefusal (block code : Nat) (s : State) : State :=
  let s := { s with pwr := { s.pwr.ended with refusals := satInc 32 s.pwr.refusals } }
  raise 840 (powerReply .refused 1 block code s)

/-- Restarts the blocks that have agreed, latest first, up to the HBM, which comes back as in wake step 4. -/
def rollBack (block code : Nat) (s : State) : State :=
  let before := s.pwr.agreed.takeWhile (· ≠ 6)
  let after := s.pwr.agreed.drop before.length
  let s := before.foldl restartBlock s
  match after with
  | [] => finishRefusal block code s
  | _ :: rest =>
    if 4 ≤ s.pwr.stage ∨ (s.hbm.state ≠ 3 ∧ s.hbm.state ≠ 4) ∨ s.boot.hbmFailed = true ∨ s.recovery = true then
      finishRefusal block code (rest.foldl restartBlock s)
    else { s with
      hbm := { s.hbm with state := 2 }
      pwr := { s.pwr with agreed := rest, block := 0, wakeStep := 4, attempt := 1, rollback := some (block, code) } }

/-- Whether a handshake is asking blocks. -/
def State.asking (s : State) : Bool := s.pwr.busy && s.pwr.block != 0

/-- Whether COMMANDS waits for the epoch that SLEEP needs, which no unit can write (17 Table 17.2; 00 R10): it is silent. -/
def State.epochAwaited (s : State) : Bool := s.pwr.block == 2 && s.pwr.target == .sleep && !s.canCopy

/-- HANDSHAKE_BLOCK_ANSWER: the block being asked answers DELAY, or AGREE where its condition of Table 17.2 holds, or else
REFUSE with its reason. PROGRAMME has no budget and cannot delay; COMMANDS, for SLEEP, is silent while its epoch cannot be
written. -/
def execHandshakeBlockAnswer (delay : Bool) (s : State) : Host.Outcome State Fault Refusal :=
  .next (
    if !s.asking || (delay && s.pwr.block != 1) then s
    else match blockReason s s.pwr.block with
      | some r => rollBack s.pwr.block r s
      | none => if s.epochAwaited then s else blockAgrees s.pwr.block s)

/-- HANDSHAKE_BUDGET_EXPIRY: silence, or DELAY beyond the budget, is a refusal with reason 0x0F. -/
def execHandshakeBudgetExpiry (s : State) : Host.Outcome State Fault Refusal :=
  .next (if s.asking then rollBack s.pwr.block 0x0F s else s)

/-! ### Rails and thresholds (17 R393, R400) -/

/-- The nominal voltage of a rail in mV (17 Table 17.6). -/
def railNominal (r : Nat) : Nat := [750, 800, 900, 1200, 1100, 400, 1800, 1800, 1800, 800].getD r 800

/-- The sag of a rail in per mille. -/
def railSag (r measured : Nat) : Nat := 1000 * (railNominal r - measured) / railNominal r

/-- The threshold keys of the monitors: PWR_TJ_WARN_C, PWR_SHED_k_ENTER and PWR_SHED_k_HYST (17 R400). -/
def thresholdKeys : List Nat := 0x0B09 :: (List.range 5).map (0x0B10 + ·) ++ (List.range 5).map (0x0B18 + ·)
/-- A threshold as the last sample took it; before the first one the effective value (17 R400). -/
def State.threshold (s : State) (key : Nat) : Nat := (tfind s.pwr.thresholds key).getD (s.eff key)
/-- The thresholds take effect, at a sample of the monitors. -/
def sampleKeys (keys : List Nat) (s : State) : State :=
  { s with pwr := { s.pwr with thresholds := keys.foldl (fun t k => tput t k (s.eff k)) s.pwr.thresholds } }
/-- PWR_SHED_k_ENTER. -/
def shedEnter (s : State) (k : Nat) : Nat := s.threshold (0x0B0F + k)
/-- PWR_SHED_k_HYST. -/
def shedHyst (s : State) (k : Nat) : Nat := s.threshold (0x0B17 + k)

/-! ### Waking (17 R389 to R392) -/

/-- A wake starts with its first step. -/
def startWake (to' : PowerState) (commanded : Bool) (s : State) : State :=
  { s with pwr := { s.pwr with busy := true, target := to', commanded := commanded, wakeStep := 1, attempt := 1 } }

/-- Whether a source's bit of PWR_WAKE_MASK lets it fire now: as latched at the entry, or, while a handshake still runs, as it
stands. -/
def wakeEnabled (s : State) (src : Nat) : Bool :=
  bit (match s.pwr.state with | .doze | .sleep => s.pwr.wakeMask | _ => s.eff 0x0B01) src

/-- A wake source fires (17 R387, R389). -/
def wakeSource (src : Nat) (s : State) : State :=
  if s.boot.porstLow || !wakeEnabled s src then s
  else if s.asking && (s.pwr.target == .doze || s.pwr.target == .sleep) then rollBack 0 0x10 s
  else if s.pwr.wakeStep ≠ 0 then { s with pwr := { s.pwr with wakesIgnored := satInc 32 s.pwr.wakesIgnored } }
  else if s.pwr.busy || s.pwr.state.awake then s
  else if s.boot.step ≠ 0 then startWake .active false { s with boot := { s.boot with step := 2 } }
  else startWake (powerOf (s.eff 0x0B00)) false s

/-- WAKE_N_LOW: WAKE_N has been low for two slow-clock cycles. -/
def execWakeNLow (s : State) : Host.Outcome State Fault Refusal := .next (wakeSource 0 s)

/-- SB_WAKE_ADDRESS_MATCH: the host sends `addr` with the start of a Sideband transaction, and `data` data bytes after it; a match on
PWR_SB_WAKE_ADDR is ACKed, the wake starts, and the data bytes are NACKed (17 R390). -/
def execSbWakeAddressMatch (addr : Nat) (s : State) (data : Nat := 0) : Host.Outcome State Fault Refusal :=
  .next (
    let own := match s.pwr.state with | .doze | .sleep => s.pwr.sbWakeAddr | _ => s.eff 0x0B02
    if s.boot.porstLow ∨ own = 0 ∨ addr ≠ own then s
    else wakeSource 1 { s with cmd := { s.cmd with sideband := { s.cmd.sideband with ack := true, nacked := data } } })

/-- Retention groups that were not retained are cleared (17 R388). -/
def clearGroups (s : State) : State :=
  { s with bus := { s.bus with retained := s.bus.retained.filter fun e => bit s.pwr.retainMask (e.1 / 2 ^ 22) } }

/-- Step 3 has completed: the control domain runs (17 Table 17.5, R388). -/
def controlOn (s : State) : State :=
  if s.pwr.ctlOn then s
  else
    let s := if s.boot.step = 0 then basesUnset (clearGroups s) else basesUnset s
    { s with pwr := { s.pwr with ctlOn := true } }

/-- Training of the HBM has succeeded. -/
def hbmReady (s : State) : State :=
  if s.hbm.state ≠ 2 then s
  else { s with hbm := { s.hbm with state := 0, failedStacks := [] }, pwr := { s.pwr with hbmTrained := true }
                boot := { s.boot with hbmFailed := false } }

/-- A WAKE entry (13 Table 13.11). -/
def wakeEntry (s : State) : State :=
  writeEntry .wake 0 0 0 0 (if s.cu.held then s.cu.holder else 2) 0 0 3 (be 4 0 ++ be 4 s.cmd.bootId) s

/-- The wake has succeeded: the target state, or the rest of stage 4 after stage 5 (17 R391, R395). -/
def finishWake (s : State) : State :=
  let to' := s.pwr.target
  let s := { s with pwr := { s.pwr with state := to', wakeFailed := false, transitions := satInc 32 s.pwr.transitions
                                        latched := s.pwr.latched.filter (· ≠ 5) } }
  let s := mpRate to'.awake s
  let s := if 4 ≤ s.pwr.stage then idleLanes (hbmRest s) else if to'.awake then restartLanes true s
    else idleLanes (latchKeys to' (hbmRest s))
  let s := raise 842 (wakeEntry s)
  powerReply .ok 0 0 0 { s with pwr := s.pwr.ended }

/-- Step 5 has completed: both units have booted, A holds the baton and restores the runtime layer, B waits for an epoch
(00 R10, 17 Table 17.5). -/
def firmwareUp (s : State) : State :=
  let s := startUnit 1 (startUnit 0 s)
  let s := match s.newestEpoch with
    | some b => applyRuntime b.body.set.runtime s
    | none => s
  let s := s.onUnit 1 fun x => { x with state := .syncing }
  calSafeRead (gainBaton 0 s)

/-- Whether every rail that feeds the domains being powered is good: a sag below PWR_SHED_1_ENTER. From DOZE these are the
channeliser, the engines and the lanes (01 Table 1.2, 17 Table 17.5). Before the first sample the row stands for it (log entry
153). -/
def railsGood (s : State) : Bool :=
  let fed := if s.pwr.state = .sleep then [0, 1, 2, 3, 4, 5, 6, 8] else [0, 1, 2, 3]
  s.pwr.rails.isEmpty || fed.all fun r => decide (railSag r (tget s.pwr.rails r 0) < shedEnter s 1)

/-- WAKE_STEP_COMPLETE: the step in progress completes. At boot step 2 the boot goes on after step 3 (19 Table 19.2); in a
rollback the HBM is back; after the undoing of shedding stage 4 its short training has ended (07 R173). -/
def wakeStepComplete (s : State) : State :=
  let next := fun (s : State) => { s with pwr := { s.pwr with wakeStep := s.pwr.wakeStep + 1, attempt := 1 } }
  match s.pwr.wakeStep with
  | 0 => if s.pwr.hbmResume then resumeEnds .ok (hbmReady s) else s
  | 1 => if railsGood s then next s else s
  | 2 => next s
  | 3 =>
    let s := controlOn s
    if s.boot.step = 2 then
      { s with boot := { s.boot with step := 3 }
               pwr := { s.pwr with wakeStep := 0, attempt := 0, busy := false, target := s.pwr.state, wakeFailed := false } }
    else next { s with hbm := { s.hbm with state := if s.recovery || s.boot.hbmFailed && s.pwr.state == .doze || s.hbm.state = 1
                                                    then s.hbm.state else 2 } }
  | 4 =>
    let s := hbmReady s
    match s.pwr.rollback with
    | some (block, code) =>
      let s := if s.pwr.state = .doze ∨ 4 ≤ s.pwr.stage then hbmRest s else s
      finishRefusal block code (s.pwr.agreed.foldl restartBlock s)
    | none => if s.pwr.state = .sleep then next s else finishWake s
  | _ => if firmwareOk s then finishWake (firmwareUp s) else s

/-- Stacks whose training repaired a lane raise EV_HBM_LANE_REPAIR (07 R174). -/
def lanesRepaired (repaired : List Nat) (s : State) : State :=
  ((List.range (stacksOf s.fuses.variant)).filter repaired.contains).foldl (fun s h => raise (656 + 8 * h + 5) s) s

/-- WAKE_STEP_COMPLETE; `repaired` are the HBM stacks whose full training in step 4 repaired a lane. -/
def execWakeStepComplete (repaired : List Nat) (s : State) : Host.Outcome State Fault Refusal :=
  .next (if s.boot.porstLow then s
    else wakeStepComplete (if s.pwr.wakeStep = 4 ∧ s.pwr.state = .sleep then lanesRepaired repaired s else s))

/-- The HBM stacks that failed training raise their events (07 R174). -/
def stacksFailed (failing : List Nat) (s : State) : State :=
  let bad := (List.range (stacksOf s.fuses.variant)).filter failing.contains
  let s := { s with hbm := { s.hbm with failedStacks := bad, state := 5 } }
  bad.foldl (fun s h => raise (656 + 8 * h + 4) s) s

/-- The wake has failed: the domains it powered are off again, and the device stays where it was (17 R392). A boot stays at
its step 2. -/
def wakeFails (step : Nat) (failing : List Nat) (s : State) : State :=
  let s := if step = 4 then stacksFailed failing s else s
  let s := match s.pwr.state with
    | .sleep => if s.boot.step ≠ 0 then s else sleepDomains s
    | _ => { s with hbm := { s.hbm with state := if s.hbm.state = 2 then 3 else s.hbm.state } }
  let s := { s with pwr := { s.pwr with wakeFailed := true, wakeFailures := satInc 32 s.pwr.wakeFailures } }
  let s := raiseFault 841 { loc := locDie, detail := step } s
  powerReply .hwFault 2 0 step { s with pwr := s.pwr.ended }

/-- A rollback's restart of the HBM has failed: the entry is finished instead (17 R386). -/
def rollbackFails (failing : List Nat) (s : State) : State :=
  let s := stacksFailed failing s
  let rest := (handshakeBlocks s.pwr.state s.pwr.target).filter fun k => !s.pwr.agreed.contains k
  let s := rest.foldl (fun s k => if k = 6 then s else stopBlock k s) s
  let s := enterLow s.pwr.target s
  let s := { s with pwr := { s.pwr with wakeFailed := true, wakeFailures := satInc 32 s.pwr.wakeFailures } }
  let s := raiseFault 841 { loc := locDie, detail := 4 } s
  powerReply .hwFault 2 0 4 { s with pwr := s.pwr.ended }

/-- The short training after the undoing of shedding stage 4 has failed in all three attempts: the HBM is FAILED, the device stays
where it was (07 R174, 17 R392). -/
def resumeFails (failing : List Nat) (s : State) : State :=
  let s := stacksFailed failing s
  resumeEnds .hwFault (raiseFault 841 { loc := locDie, detail := 4 }
    { s with pwr := { s.pwr with wakeFailed := true, wakeFailures := satInc 32 s.pwr.wakeFailures } })

/-- The domains of the step in progress are switched off and on again: in a wake from SLEEP those of step 5 are the control
domain, with nothing of it kept, and that of step 4 is the HBM; a wake from DOZE and the earlier steps power none that has state (17
R391; log entry 152). -/
def switchAgain (s : State) : State :=
  if s.pwr.state ≠ .sleep ∨ s.boot.step ≠ 0 then s
  else match s.pwr.wakeStep with
    | 4 => { s with hbm := { ({} : Hbm) with state := s.hbm.state } }
    | 5 =>
      let t := sleepDomains s
      controlOn { t with hbm := s.hbm, pwr := { t.pwr with hbmTrained := s.pwr.hbmTrained } }
    | _ => s

/-- WAKE_STEP_TIMEOUT: an attempt of the step times out; `stacks` are the HBM stacks that step 4 did not train. -/
def execWakeStepTimeout (failing : List Nat) (s : State) : Host.Outcome State Fault Refusal :=
  .next (
    if s.boot.porstLow ∨ (s.pwr.wakeStep = 0 ∧ s.pwr.hbmResume = false) then s
    else if s.pwr.attempt < 3 then
      let t := switchAgain s
      { t with pwr := { t.pwr with attempt := s.pwr.attempt + 1, wakeRepeats := satInc 32 s.pwr.wakeRepeats } }
    else if s.pwr.hbmResume then resumeFails failing s
    else if s.pwr.rollback.isSome then rollbackFails failing s
    else wakeFails s.pwr.wakeStep failing s)

/-! ### The supply monitors (17 R393) -/

/-- Whether a domain that the rail feeds is powered: VIO feeds none, and the HBM's rails its domain alone (01 Table 1.2). -/
def railCounted (s : State) (r : Nat) : Bool :=
  s.pwr.state != .sleep && match r with
    | 7 | 9 => false
    | 4 | 5 | 6 => s.hbm.state != 4 && s.hbm.state != 5
    | _ => true

/-- SUPPLY_MONITOR_SAMPLE: the rails read, in mV, in the order of Table 17.6. -/
def execSupplyMonitorSample (rails : List Nat) (s : State) : Host.Outcome State Fault Refusal :=
  .next (
    if s.boot.porstLow then s
    else
      let s := sampleKeys (thresholdKeys.drop 1) s
      let counted := (List.range 10).filter fun r => railCounted s r
      let sag := counted.foldl (fun m r => max m (railSag r (rails.getD r 0))) 0
      let worst := (counted.find? fun r => railSag r (rails.getD r 0) == sag).getD 0
      let s := { s with pwr := { s.pwr with
        sag := sag, worstRail := worst, rails := (List.range 10).map fun r => (r, rails.getD r 0) } }
      if rails.getD 9 0 * 1000 < 950 * railNominal 9 then raise 846 s else s)

/-! ### Shedding (17 R394 to R397) -/

/-- Whether stage `k` is in force. -/
def State.inStage (s : State) (k : Nat) : Bool := decide (k ≤ s.pwr.low) || s.pwr.latched.contains k

/-- The domains of SLEEP, as stage 5 asks: before the control domain goes off the holder writes an epoch (00 R10, R337; log entry
126). A boot whose domains are lost starts again with its step 2 (log entry 151). -/
def enterStage5 (s : State) : State :=
  let s := if s.boot.step ≤ 2 then s else { s with boot := { s.boot with step := 2 } }
  if s.pwr.state ≠ .sleep then enterLow .sleep (holderEpoch s) else if s.pwr.ctlOn then sleepDomains s else s

/-- A stage is entered: its event, its fault entry from stage 3 on, and its latch (17 R394). -/
def markStage (detail : Nat) (s : State) (k : Nat) : State :=
  let s := if 3 ≤ k then raiseFault (831 + k) { loc := locDie, detail := detail } s else raiseDetail (831 + k) detail s
  { s with pwr := { s.pwr with
    stageEntries := tmod s.pwr.stageEntries k 0 (satInc 32)
    low := if k ≤ 2 then k else s.pwr.low
    latched := if 3 ≤ k then k :: s.pwr.latched else s.pwr.latched } }

/-- The actions of a stage (17 Table 17.7). -/
def stageActs (s : State) (k : Nat) : State :=
  match k with
  | 1 => calForceAll 1 s
  | 4 => hbmRest (stopLanes false s true)
  | 5 => enterStage5 s
  | _ => s

/-- A stage cuts a handshake, or, as stage 5, a wake (17 R387). -/
def shedCuts (k : Nat) (s : State) : State :=
  if s.asking then rollBack 0 0x11 s
  else if k = 5 ∧ s.pwr.rollback.isSome = true then
    match s.pwr.rollback with | some (block, code) => finishRefusal block code s | none => s
  else if k = 5 ∧ s.pwr.busy = true then
    let step := s.pwr.wakeStep
    powerReply .hwFault 2 0 step { s with pwr := s.pwr.ended }
  else s

/-- Enters every stage up to `k` that is not in force, within one microsecond; `also` are events of the same instant, whose numbers
come after those of the stages (16 R376). -/
def shedTo (k detail : Nat) (s : State) (also : State → State := id) : State :=
  let ks := ((List.range k).map (1 + ·)).filter fun j => !s.inStage j
  shedCuts k (ks.foldl stageActs (also (ks.foldl (markStage detail) s)))

/-- Whether the device is in a state that sheds. -/
def State.sheds (s : State) : Bool := !s.boot.porstLow && s.pwr.state != .sleep

/-- SHED_STAGE_ENTER: the sag has stayed at or above PWR_SHED_k_ENTER for PWR_SHED_FILTER_US. -/
def execShedStageEnter (k : Nat) (s : State) : Host.Outcome State Fault Refusal :=
  .next (if s.sheds ∧ s.eff 0x0B06 = 1 ∧ s.inStage k = false ∧ 1 ≤ k ∧ k ≤ 5 ∧ shedEnter s k ≤ s.pwr.sag then
      shedTo k s.pwr.worstRail s else s)

/-- SHED_STAGE_EXIT: the sag has stayed below PWR_SHED_k_ENTER - PWR_SHED_k_HYST for PWR_SHED_EXIT_MS; stages 1 and 2 end so,
2 before 1, whatever deeper stage is latched (17 R395). -/
def execShedStageExit (k : Nat) (s : State) : Host.Outcome State Fault Refusal :=
  .next (if s.boot.porstLow = false ∧ 1 ≤ k ∧ k ≤ 2 ∧ s.pwr.low = k ∧ s.pwr.sag < shedEnter s k - shedHyst s k then
      captureResumes { s with pwr := { s.pwr with low := k - 1 } } else s)

/-- The stage that the present sag calls for, at most 2 (17 R396). -/
def stageCalled (s : State) : Nat :=
  if s.eff 0x0B06 = 0 then 0
  else if shedEnter s 2 ≤ s.pwr.sag then 2 else if shedEnter s 1 ≤ s.pwr.sag then 1 else 0

/-- The latched stages are undone in descending order: for stage 4 the HBM leaves self-refresh by short training, which ends with
WAKE_STEP_COMPLETE (07 R173), and engines stopped by the debug access port continue (08 R201). The stage that the sag calls for is
then in force. -/
def undoStages (s : State) : State :=
  let had4 := s.pwr.latched.contains 4
  let called := if s.pwr.latched = [] then s.pwr.low else stageCalled s
  let more := ((List.range called).map (1 + ·)).filter fun k => decide (s.pwr.low < k)
  let s := more.foldl stageActs (more.foldl (markStage s.pwr.worstRail) s)
  let s := captureResumes { s with pwr := { s.pwr with low := called, latched := [], tripped := false } }
  let s := if had4 && s.pwr.state.awake then
      restartLanes true (if s.hbm.state = 3 then
        { s with hbm := { s.hbm with state := 2 }, pwr := { s.pwr with hbmResume := true, attempt := 1 } } else s)
    else s
  resumeEngines { s with engines := s.engines.map fun e => (e.1, { e.2 with debug := false }) }

/-- RESUME replies at once, or, where the HBM has to train, once that has ended (17 R396, R397). -/
def resume (_ : Ctx) (s : State) : Verdict :=
  if shedEnter s 3 - shedHyst s 3 ≤ s.pwr.sag then .no .badState
  else if s.pwr.tripped = true ∧ (s.threshold 0x0B09 : Int) ≤ s.pwr.junction then .no .badState
  else if s.pwr.latched.contains 4 && s.pwr.state.awake && s.hbm.state == 3 then .awaits undoStages
  else .done fun s => let s := undoStages s; (s, resumeReply s)

/-- TJ_SENSOR_READ: the junction sensor reads `t` degrees; a trip enters stage 5 in every state (17 R397). -/
def execTjSensorRead (t : Int) (s : State) : Host.Outcome State Fault Refusal :=
  .next (
    if s.boot.porstLow then s
    else
      let s := sampleKeys [0x0B09] { s with pwr := { s.pwr with junction := t } }
      let warn := fun (s : State) => if (s.threshold 0x0B09 : Int) ≤ t then raise 844 s else s
      if 115 ≤ t then
        shedTo 5 s.pwr.worstRail { s with pwr := { s.pwr with tripped := true } } fun s => raise 845 (warn s)
      else warn s)

/-! ### ENTER_POWER_STATE (17 R382, R395) -/

/-- ENTER_POWER_STATE. -/
def enterPowerState (c : Ctx) (s : State) : Verdict :=
  let k := fld c.p 0 1
  let to' := powerOf k
  if 3 < k ∨ fld c.p 1 3 ≠ 0 then .no .badParam
  else if s.pwr.latched ≠ [] ∧ ¬(s.pwr.stage = 5 ∧ to'.awake = true) then .no .badState
  else if s.pwr.state = to' then .answer [0, 0, 0, 0]
  else if s.boot.step ≠ 0 ∧ (2 < s.boot.step ∨ s.pwr.wakeStep ≠ 0) then .no .busy
  else if s.boot.step ≠ 0 then .later (.powerState k) (startWake to' true)
  else match handshakeBlocks s.pwr.state to' with
    | b :: _ => .later (.powerState k) fun s =>
      { s with pwr := { s.pwr with busy := true, commanded := true, target := to', block := b, agreed := [] } }
    | [] =>
      if s.pwr.state = .idle then .later (.powerState k)
        (fun s => { s with pwr := { s.pwr with state := to', target := to', transitions := satInc 32 s.pwr.transitions } })
        (powerReply .ok 0 0 0)
      else .later (.powerState k) (startWake to' true)

/-! ### Clocks (17 R383, R384) -/

/-- XTAL_LOST: the crystal stops for 4 oscillator cycles. -/
def execXtalLost (s : State) : Host.Outcome State Fault Refusal :=
  .next (if !s.boot.porstLow && s.pwr.slowXtal then
      raise 736 { s with pwr := { s.pwr with slowXtal := false, xtalTrying := false } }
    else s)

/-- XTAL_RETRY: after 10 s the crystal is tried again. -/
def execXtalRetry (s : State) : Host.Outcome State Fault Refusal :=
  .next (if s.boot.porstLow || s.pwr.slowXtal then s else { s with pwr := { s.pwr with xtalTrying := true } })

/-- SLOW_CLOCK_TO_XTAL: the crystal has run 32,768 clean cycles. -/
def execSlowClockToXtal (s : State) : Host.Outcome State Fault Refusal :=
  .next (if !s.boot.porstLow && s.pwr.xtalTrying && s.pwr.slowSrc == 0 then { s with pwr := { s.pwr with slowXtal := true } }
    else s)

/-- Whether the core clocks run: from the end of wake step 3 on, until the control domain goes off (17 R384, Table 17.5). -/
def State.clocked (s : State) : Bool := !s.boot.porstLow && s.pwr.ctlOn
/-- Whether the HBM's clocks run. -/
def State.hbmClocked (s : State) : Bool := s.pwr.hbmTrained || s.hbm.state == 2

/-- CORE_CLOCK_LOST: REFCLK_CORE is lost or the core PLL unlocks, or, with `hbm`, an HBM PLL unlocks: stage 5 with cause
CLOCK, whose code in DETAIL the spec does not give (log entry 31). -/
def execCoreClockLost (hbm : Bool) (s : State) : Host.Outcome State Fault Refusal :=
  .next (
    if !s.clocked || (hbm && !s.hbmClocked) then s
    else
      let s := raiseFault (if hbm then 738 else 737) { loc := locDie } s
      let w := s.free
      shedTo 5 (Config.freeWord w).toNat { s with free := w + 1 })

/-- MP_PLL_UNLOCK: the Management Port's PLL unlocks. -/
def execMpPllUnlock (s : State) : Host.Outcome State Fault Refusal :=
  .next (if s.boot.porstLow then s
    else mpPllLost s)

/-- MP_LINK_RESTART: every 100 ms the link is restarted, until the PLL has locked again, which it cannot without its reference
(03 R71). -/
def execMpLinkRestart (locked : Bool) (s : State) : Host.Outcome State Fault Refusal :=
  .next (if s.boot.porstLow || s.mp.pllLocked then s
    else mpRestart { s with mp := { s.mp with pllLocked := locked && !s.refsLost.contains 0 } })

end Sys2Proof.Machine
end

