-- ==== Sys2Proof/Machine/Boot.lean ====
section
/-! DEFINITION. Reset by PORST_N and by the TAP, the boot sequence and the image layer (19_boot_and_image.md R413 to R422;
20_electrical_and_package.md R431, R443, R444). -/

namespace Sys2Proof.Machine

/-! ### Reset (20 R431, R444) -/

/-- Everything that PORST_N resets is at its reset value; the fuses, the flash, the TAP and the pin remain. -/
def resetDevice (s : State) : State :=
  { fuses := s.fuses, free := s.free, sent := s.sent, pending := s.pending
    boot := { ({} : Boot) with flash := s.boot.flash, flashSize := s.boot.flashSize, tapIr := s.boot.tapIr
                               tapHeld := s.boot.tapHeld, porstPin := s.boot.porstPin, pins := s.boot.pins } }

/-- PORST_N_ASSERT: PORST_N has been low for 10 µs. -/
def execPorstNAssert (s : State) : Host.Outcome State Fault Refusal :=
  let s := resetDevice s
  .next { s with boot := { s.boot with porstPin := true } }

/-- Boot step 1: BOOT_SEL is sampled, the routes are those of 16 R369, a BOOT_ID is drawn, the BOOT entry takes JSN 1, and the
responder serves; step 2 begins (19 Table 19.2). -/
def bootStart (pins : Nat) (s : State) : State :=
  let w := s.free
  let id := (Config.freeWord w).toNat
  let s := { s with
    free := w + 1
    boot := { s.boot with porstLow := false, pins := pins % 4, sel := pins % 4, step := 2 }
    cmd := { s.cmd with bootId := id }
    pwr := { s.pwr with wakeStep := 1, attempt := 1 } }
  mpRestart (writeEntry .boot 0 0 0 0 2 0 0 3 (be 4 0 ++ be 4 id) s)

/-- BOOT: PORST_N rises with BOOT_SEL at `pins`; the device boots unless a TAP instruction still holds it. -/
def execBoot (pins : Nat) (s : State) : Host.Outcome State Fault Refusal :=
  .next (if s.boot.porstPin then
      let s := { s with boot := { s.boot with porstPin := false } }
      if s.boot.tapHeld then s else bootStart pins s
    else s)

/-- The TAP instructions that hold the device in reset (20 Table 20.11). -/
def tapHolds (code : Nat) : Bool := [0x00, 0x03, 0x04, 0x05, 0x06].contains (code % 256)

/-- TAP_RESET_INSTRUCTION_LOAD: an instruction is loaded; the five of R444 reset the device. -/
def execTapResetInstructionLoad (code : Nat) (s : State) : Host.Outcome State Fault Refusal :=
  .next (
    if tapHolds code then
      let s := if s.boot.tapHeld then s else resetDevice s
      { s with boot := { s.boot with tapIr := code % 256, tapHeld := true } }
    else if s.boot.tapHeld then s
    else { s with boot := { s.boot with tapIr := code % 256 } })

/-- The TAP leaves the instructions that hold the device: it boots, unless PORST_N is still low. -/
def tapLeave (code pins : Nat) (s : State) : State :=
  let held := s.boot.tapHeld
  let s := { s with boot := { s.boot with tapIr := code % 256, tapHeld := false } }
  if held && !s.boot.porstPin then bootStart pins s else s

/-- TAP_RESET_INSTRUCTION_LEAVE: another instruction, `code`, is loaded with BOOT_SEL at `pins`. -/
def execTapResetInstructionLeave (code pins : Nat) (s : State) : Host.Outcome State Fault Refusal :=
  .next (if s.boot.tapHeld && !tapHolds code then tapLeave code pins s else s)

/-- TAP_RESET: the debug access port master is reset; as in IEEE 1149.1 the instruction is then IDCODE, which leaves any
instruction that held the device. -/
def execTapReset (pins : Nat) (s : State) : Host.Outcome State Fault Refusal :=
  .next (tapLeave 0x02 pins (busLeaveReset 4 (busAbandon 4 s)))

/-! ### Copy selection (19 R418) -/

/-- The verdict on a copy: RESULT of Table 19.7, 9 where its reading fails. -/
def copyResult (s : State) (bad : List Nat) (c : Nat) : Nat := if bad.contains c then 9 else (ryunosResult s c).1

/-- Whether a copy may boot: its record's IMAGE_CRC, where the record is valid, matches, and its checks pass. -/
def copyVerdict (s : State) (bad : List Nat) (c : Nat) : Nat :=
  let r := copyResult s bad c
  let crcOk : Bool := (activation s c).isNone || ryunosCrc s c == some (fld (flashRead s (recordAddr s c) 20) 12 4)
  if r = 0 ∧ crcOk = false then 5 else r

/-- The fault entry of a copy that fails. -/
def copyFailed (event result : Nat) (s : State) : State :=
  raiseFault event { loc := locDie, detail := result } (authEvent result s)

/-- The recovery firmware is loaded for want of an image. -/
def noImage (s : State) : State := { s with boot := { s.boot with copy := 2, noImage := true } }

/-- Step 4: the copy that boots. -/
def selectCopy (bad : List Nat) (s : State) : State :=
  if s.boot.copy = 2 then s
  else
    let first := presetCopy s
    let r0 := copyVerdict s bad first
    if r0 = 0 then { s with boot := { s.boot with copy := first } }
    else
      let s := copyFailed 1016 r0 { s with boot := { s.boot with fallback := true } }
      let r1 := copyVerdict s bad (1 - first)
      if r1 = 0 then { s with boot := { s.boot with copy := 1 - first } }
      else noImage (copyFailed 1017 r1 s)

/-! ### The image layer (19 R422) -/

/-- Per key, the image values from the highest source down: the settings slot's, then the SETTINGS section's. -/
abbrev Candidates := Tab (List Nat)

/-- The values that the copy's slot and section hold. -/
def candidatesOf (s : State) (copy : Nat) : Candidates :=
  let sectVals := settingEntries (ryunosSection s copy 2)
  let t : Candidates := sectVals.foldl (fun t e => tput t e.1 [e.2]) []
  (slotEntries s copy).foldl (fun t e => tmod t e.1 [] fun l => e.2 :: l) t

/-- The image layer that the candidates give. -/
def imageOf (t : Candidates) : Tab Nat := t.filterMap fun e => e.2.head?.map fun v => (e.1, keptField e.1 v)

/-- A rejection: EV_BOOT_SETTING_REJECTED with its fault; for a half-port word also cause CONFIG_REJECTED (03 R55). -/
def settingRejected (key : Nat) (s : State) : State :=
  let s := raiseFault 1019 { loc := locDie, detail := key, unit := 0 } s
  if 0x0200 ≤ key ∧ key < 0x0200 + halfPortsOf s.fuses.variant then setHpCause (key - 0x0200) 10 s else s

/-- Drops the values of a key that its range does not allow, each a rejection. -/
def settleKey (fuel key : Nat) (x : Candidates × State) : Candidates × State :=
  match fuel with
  | 0 => x
  | fuel + 1 => match tget x.1 key [] with
    | v :: vs => if valueOk x.2.fuses key v then x else settleKey fuel key (tput x.1 key vs, settingRejected key x.2)
    | [] => x

/-- Rejects the value of a key that a rule between keys breaks. -/
def rejectKey (x : Candidates × State) (key : Nat) : Candidates × State :=
  match tget x.1 key [] with
  | _ :: vs => settleKey 2 key (tput x.1 key vs, settingRejected key x.2)
  | [] => x

/-- Both words of an unequal pair of mode-5 words give way to OFF (03 R55). -/
def rejectPair (x : Candidates × State) (p : Nat) : Candidates × State :=
  let s := { x.2 with set := { x.2.set with image := imageOf x.1 } }
  if pairOk (s.hpConfig (2 * p)) (s.hpConfig (2 * p + 1)) then x
  else [0x0200 + 2 * p, 0x0201 + 2 * p].foldl (fun x k =>
    (tput x.1 k (if factoryField x.2.fuses k = 0 then [] else [0]), settingRejected k x.2)) x

/-- The rules between keys (02 R24, 03 R62, 07 R180, 14 R349, 17 R390 and R400) that the effective values break, as the keys
that each involves. -/
def brokenRules (s : State) : List (List Nat) :=
  let tb := fun (n : Nat) => [0x0500 + 16 * n, 0x0501 + 16 * n, 0x0502 + 16 * n]
  let clash := ((List.range 4).flatMap fun n => (List.range n).map fun m => (n, m)).filter fun e =>
    s.tbKey e.1 0 == 1 && s.tbKey e.2 0 == 1 && s.tbKey e.1 1 == s.tbKey e.2 1 && s.tbKey e.1 2 == s.tbKey e.2 2
  let one := fun (ok : Bool) (ks : List Nat) => if ok then [] else [ks]
  clash.map (fun (e : Nat × Nat) => tb e.1 ++ tb e.2) ++
  one (keyRulesOk s 0x0280) [0x0280, 0x0281] ++
  one (keyRulesOk s 0x0704) [0x0704, 0x070A] ++
  one (keyRulesOk s 0x0E01) [0x0E01, 0x0E02] ++
  one (keyRulesOk s 0x0120) [0x0120, 0x0B02] ++
  ((List.range 4).flatMap fun i =>
    one (decide (s.eff (0x0B10 + i) < s.eff (0x0B11 + i))) [0x0B10 + i, 0x0B11 + i]) ++
  ((List.range 5).flatMap fun i =>
    one (decide (s.eff (0x0B18 + i) < s.eff (0x0B10 + i))) [0x0B10 + i, 0x0B18 + i])

/-- Rejects until every rule holds; the fuel is the number of image values. -/
def settleRules (fuel : Nat) (x : Candidates × State) : Candidates × State :=
  match fuel with
  | 0 => x
  | fuel + 1 =>
    let s := { x.2 with set := { x.2.set with image := imageOf x.1 } }
    match (brokenRules s).flatten.eraseDups with
    | [] => x
    | ks => settleRules fuel (ks.foldl rejectKey x)

/-- ROUTES replaces the default routes; an entry for a reserved or absent event, or with bits [7:4] set, is ignored and
recorded. -/
def applyRoutes (b : Bytes) (s : State) : State :=
  (List.range (b.length / 4)).foldl (fun s i =>
    let e := fld b (4 * i) 2
    let r := fld b (4 * i + 2) 1
    if eventPresent s.fuses.variant e && decide (r < 16) then
      { s with ev := { s.ev with routes := tput s.ev.routes e (BitVec.ofNat 8 r) } }
    else raiseFault 1019 { loc := locDie, detail := e + 2 ^ 16, unit := 0 } s) s

/-- The image layer of the running copy, with its routes. -/
def applyImage (s : State) : State :=
  let c := s.boot.copy
  let s := [0, 1].foldl (fun s i => if (slotSeq s c i).isNone then raise 1020 s else s) s
  let t := candidatesOf s c
  let x := (t.map (·.1)).foldl (fun x k => settleKey 2 k x) (t, s)
  let x := (List.range (halfPortsOf s.fuses.variant / 2)).foldl rejectPair x
  let x := settleRules (2 * t.length + 1) x
  let s := { x.2 with set := { x.2.set with image := imageOf x.1 } }
  applyRoutes (ryunosSection s c 3) s

/-! ### The boot sequence (19 Table 19.2) -/

/-- Step 6 begins: unit A trains the HBM. -/
def trainHbm (s : State) : State :=
  { s with boot := { s.boot with step := 6 }, hbm := { s.hbm with state := 2 } }

/-- Step 5, after step 4: the firmware is in the local memories, and A, then B, leaves reset. The recovery firmware trains no
HBM (19 R414). -/
def releaseUnits (s : State) : State :=
  let s := startUnit 1 (startUnit 0 s)
  if s.recovery then { s with boot := { s.boot with step := 7 } } else trainHbm s

/-- Step 6 ends, with the stacks that failed in all three attempts: then the HBM domain is off. -/
def hbmTrainingEnds (bad : List Nat) (s : State) : State :=
  let failed := (List.range (stacksOf s.fuses.variant)).any bad.contains
  let s := if failed then
      let s := stacksFailed bad s
      { s with boot := { s.boot with hbmFailed := true } }
    else hbmReady s
  { s with boot := { s.boot with step := 7 } }

/-- Step 7 ends: the image layer, the safe codes, half-port training, A ACTIVE and B waiting for its first commit; the register
slices leave the paths at the next quiet point (15 R361). Without
unit A no unit holds the baton (14 R340). -/
def bootDone (s : State) : State :=
  let up : Bool := match (s.unit 0).state with | .booting | .syncing => true | _ => false
  let s := if s.boot.sel = 0 ∧ s.recovery = false then basesUnset (applyImage s) else s
  let s := calSafeRead s
  let s := { s with
    boot := { s.boot with step := 0, complete := true }
    pwr := { s.pwr with state := .active, target := .active } }
  let s := mpRate true s
  let s := if s.recovery then s
    else (List.range (halfPortsOf s.fuses.variant)).foldl (fun s h => attempt h s) s
  let s := if (s.unit 1).state = .booting then s.onUnit 1 fun x => { x with state := .syncing } else s
  let s := if up then gainBaton 0 s else noHolderCheck { s with cu := { s.cu with passing := true } }
  powerReply .ok 0 0 0 s

/-- BOOT_STEP_COMPLETE: the step that waits for flash, training or firmware completes. `bad`: in step 3 not empty, the flash
fails; in step 4 the copies whose reading fails; in step 6 the stacks that failed training. `repaired`: the stacks with a
repaired lane. -/
def bootStepComplete (bad repaired : List Nat) (s : State) : State :=
  match s.boot.step with
  | 3 =>
    let s := { s with boot := { s.boot with step := 4 } }
    if s.boot.sel = 3 then s
    else if s.boot.sel = 2 then { s with boot := { s.boot with copy := 2 } }
    else if bad = [] then s
    else noImage (copyFailed 1017 9 s)
  | 4 => if s.boot.sel = 3 then s else releaseUnits (selectCopy bad s)
  | 6 => hbmTrainingEnds bad (lanesRepaired repaired s)
  | 7 => bootDone s
  | _ => s

/-- BOOT_STEP_COMPLETE. -/
def execBootStepComplete (bad repaired : List Nat) (s : State) : Host.Outcome State Fault Refusal :=
  .next (if s.boot.porstLow then s else bootStepComplete bad repaired s)

/-- In DEBUG_HOLD a unit is released, to run what its local memory holds (19 R414). -/
def releaseUnit (u : Nat) (s : State) : State :=
  if s.boot.sel = 3 ∧ s.pwr.ctlOn = true ∧ s.boot.step ≠ 3 ∧ (s.unit u).inReset = true then
    let s := busLeaveReset u (s.onUnit u fun x => x.started)
    if u = 0 ∧ s.boot.step = 4 then trainHbm s else s
  else s

/-- A write of RELEASE_A or RELEASE_B by a master: 4 and 5 only (19 Table 19.6). -/
def bootRelease (m u : Nat) (s : State) : State :=
  if m = 4 ∨ m = 5 then releaseUnit u s else busDenied m s

/-- The BOOT_STATUS word (19 Table 19.6). -/
def bootStatus (s : State) : Nat := s.boot.sel + 4 * s.boot.copy + 16 * s.boot.step + 128 * b2n s.boot.fallback

end Sys2Proof.Machine
end

