-- ==== Sys2Proof/Machine/Controller.lean ====
section
/-! DEFINITION. Which DMA burst is ready and which is granted, and how the ports of the HBM controller below CT_READ come to their
turn: the captured run and the scrub among them (12_dma.md R286 to R288, R291, R292; 07_corner_turn_memory.md R166, R170, R176). -/

namespace Sys2Proof.Machine

/-! ### What the next burst moves (12 Table 12.3, R289) -/

/-- The frame whose parity a channel's descriptors take: that of its act. -/
def DmaChannel.frame (x : DmaChannel) : Nat := match x.start with | some st => st.frame | none => 0

/-- The programme that a channel's chain belongs to. -/
def State.dmaProg (s : State) (x : DmaChannel) : Option Programme := match x.start with | some st => s.progGen st.gen | none => none

/-- EG_PAYLOAD_MAX as the programme of a generation took it (04 R76). -/
def State.payloadOf (s : State) (gen : Nat) : Nat :=
  match s.heldSlots.find? fun y => y.generation == gen with | some y => y.payloadMax | none => 0

/-- Records of one channel over a programme (04 R90). -/
def Programme.channelRecords (p : Programme) : Nat := p.groups * (p.groups + 1) / 2 * 256

/-- The beam set whose records a beam drain sends: that of the seed's beam number (12 R289). -/
def drainSet (p : Programme) (d : Bytes) : Option BeamSet :=
  p.beams.find? fun b => b.beams != 0 && decide (b.beamBase ≤ seedRecord d / 256) && decide (seedRecord d / 256 < b.beamBase + b.beams)

/-- Records of the next visibility packet of a drain: as many as the payload holds, of one channel (04 R90). -/
def visCount (p : Programme) (payload : Nat) (d : Bytes) (read : Nat) : Nat :=
  let per := max 1 p.channelRecords
  let at' := seedRecord d + read / 12
  max 1 (min (payload / visSize (seedKind d / 16)) (min (per - at' % per) ((dLength d - read) / 12)))

/-- Source bytes of a beam packet. -/
def beamPacketBytes (d : Bytes) (b : BeamSet) : Nat := if seedKind d % 16 = 2 then b.m * b.q * 2 else b.q * b.powerSize

/-- Source bytes of the next burst of a descriptor. -/
def burstBytes (s : State) (x : DmaChannel) (d : Bytes) : Nat :=
  let left := dLength d - x.readBytes
  match dMode d with
  | 0 => min 2048 left
  | 4 => min 768 left
  | 6 => match s.dmaProg x with
    | some p =>
      if seedKind d % 16 = captureKind then left
      else if seedKind d % 16 = 1 then min left (12 * visCount p (s.payloadOf p.generation) d x.readBytes)
      else match drainSet p d with
        | some b => min left (max 1 (beamPacketBytes d b))
        | none => min left (s.payloadOf p.generation / sourceRecord d * sourceRecord d)
    | none => left
  | _ => min 3072 left

/-- The orbit before which a TAIL act's drain ends, less one: the last orbit that it drains; any other act's frame (11 R272). -/
def drainOrbit (p : Programme) (st : DmaStart) : Nat :=
  match p.acts[st.act]? with
  | some a => if a.tail then a.tailBefore p.nInt st.frame - 1 else st.frame
  | none => st.frame

/-! ### Eligibility (12 R286 to R288, R291, R292) -/

/-- The rate of a descriptor's target in bytes per core cycle, as a fraction; none is no limit (12 R291, 07 R169). -/
def targetRate (s : State) (d : Bytes) : Option (Nat × Nat) :=
  let hbm := match s.inEffect with
    | some p => some (match s.fuses.variant with
      | .gl2048 => (128 * p.shares.getD 2 0, 10)
      | .gl1024 => (64 * (p.shares.getD 2 0 + p.shares.getD 3 0), 10))
    | none => none
  match dMode d with
  | 0 => if wSpace (dDst d) = 1 then some (4, 1) else hbm
  | 1 | 5 => hbm
  | 6 => some (25, 2)
  | _ => some (64, 1)

/-- The cycles that the limiter puts between the starts of a burst of `b` bytes and of the next (12 R291). -/
def burstSpacing (s : State) (d : Bytes) (b : Nat) : Nat :=
  match targetRate s d with
  | some (num, den) => ceilDiv (b * 64 * den) (dShare d * num)
  | none => 0

/-- Whether the limiter allows a channel's next burst; after a first one, a target without a rate allows none (12 R291). -/
def rateAllows (s : State) (x : DmaChannel) (d : Bytes) : Bool :=
  decide (x.nextAt ≤ s.cycle) && (x.nextAt == 0 || match targetRate s d with | some (num, _) => num != 0 | none => true)

/-- Whether a descriptor's bursts read the HBM. -/
def readsHbm (d : Bytes) : Bool := wSpace (dSrc d) == 0
/-- Whether a descriptor's bursts write the HBM. -/
def writesHbm (d : Bytes) : Bool := dMode d != 6 && wSpace (dDst d) == 0
/-- Whether a descriptor's bursts read or write the HBM. -/
def usesHbm (d : Bytes) : Bool := readsHbm d || writesHbm d

/-- The HBM bytes that the next burst of a descriptor reads: with CHECK the first of a weight stream also reads the header. -/
def burstReads (s : State) (x : DmaChannel) (d : Bytes) : Nat :=
  burstBytes s x d + if dMode d = 4 ∧ dCheck d = true ∧ x.readBytes = 0 then 16 else 0

/-- Bytes of the bursts in the burst buffer. -/
def bufferUsed (s : State) : Nat :=
  s.dma.channels.foldl (fun t x => x.2.inFlight.foldl (fun t b => t + b.length) t) 0

/-- The set whose staging buffer a FINISH descriptor fills, by its slot. -/
def finishTarget (s : State) (c : Nat) (x : DmaChannel) (d : Bytes) : Option BeamSet :=
  match s.dmaProg x with
  | some p =>
    let y := (s.eng (wEngine (dSrc d))).slot (wSlot (dSrc d))
    finishSet p c ((y.tile - 0x3000) / 16) y.chan
  | none => none

/-- The bytes that a FINISH of orbit `n` writes into the staging buffer (10 R237 to R239). -/
def stagedBytes (s : State) (b : BeamSet) (n tile chan : Nat) : Nat :=
  let t := tile - 0x3000
  let f := tget s.finishes ((b.set * 2 ^ 14 + t) * 2 ^ 16 + chan) {}
  let first := 256 * (if f.frame = n then f.blocks else 0) + 16 * (t % 16)
  let rows := (blockRows b (t / 16)).length
  (if bit b.output 0 then 32 * rows else 0) +
    (if bit b.output 1 && (first + 16) % max 1 b.pInt == 0 then
      (if b.powerFmt = 1 then (rows + 1) / 2 else rows) * b.powerSize else 0)

/-- The bytes that a burst of a descriptor writes into the HBM. -/
def burstWrites (s : State) (c : Nat) (x : DmaChannel) (d : Bytes) (b : DmaBurst) : Nat :=
  if dMode d = 5 then
    match finishTarget s c x d with
    | some set =>
      let y := (s.eng (wEngine (dSrc d))).slot (wSlot (dSrc d))
      stagedBytes s set x.frame y.tile y.chan
    | none => 0
  else b.length

/-- The bytes that the burst written next waits to write into the HBM; none where it writes none there. -/
def State.nextDmaWrite (s : State) : Option Nat :=
  match s.dma.order with
  | c :: _ =>
    let x := s.dch c
    match x.desc, x.inFlight with
    | some d, b :: _ => if writesHbm d then some (burstWrites s c x d b) else none
    | _, _ => none
  | [] => none

/-- Whether DMA_WR has an eligible request, which goes ahead of the ports below it (07 R170). -/
def State.dmaWrites (s : State) : Bool :=
  s.dmaLive && match s.nextDmaWrite with | some n => s.mayDraw 2 n | none => false

/-- Whether a channel's next burst waits for nothing but a slot, a token or a staging buffer (12 R287). -/
def burstReady (s : State) (c : Nat) : Bool :=
  let x := s.dch c
  match x.desc with
  | none => false
  | some d =>
    (x.state == 1 || x.state == 3) && !x.cut && decide (x.readBytes < dLength d) && rateAllows s x d && !x.noRequest &&
      (!usesHbm d || s.hbm.state == 0) && (!readsHbm d || (s.granted 3 (burstReads s x d) && !s.dmaWrites)) &&
      (match s.fuses.variant with
       | .gl2048 => decide (x.inFlight.length < 2) && decide (bufferUsed s + burstBytes s x d ≤ 2 ^ 20)
       | .gl1024 => s.dma.order.isEmpty)

/-- The tile of the handover entry that a HANDOVER descriptor serves. -/
def handoverTile (s : State) (x : DmaChannel) : Nat :=
  match x.start, s.dmaProg x with
  | some st, some p => match p.acts[st.act]? with
    | some a => match p.handovers[a.first + x.current]? with
      | some h => h.tile
      | none => 0
    | none => 0
  | _, _ => 0

/-- Whether a beam drain waits for the finishes of its orbit; one of a programme halted AT_ONCE drains what is there (10 R239;
11 R275). -/
def drainWaits (s : State) (x : DmaChannel) (d : Bytes) : Bool :=
  match x.start, s.dmaProg x with
  | some st, some p =>
    dMode d == 6 && decide (2 ≤ seedKind d % 16) && decide (seedKind d % 16 ≤ 3) &&
      (match drainSet p d with | some b => finishesDue s b (drainOrbit p st) | none => false) &&
      !(s.heldSlots.any fun y => y.generation == p.generation && y.haltedAtOnce)
  | _, _ => false

/-- Whether BUSY of a slot holds a DMA burst: passes that a halt AT_ONCE has left in the queue never take place (08 R192, R201; 11 R276;
log entry 137). -/
def State.slotHeld (s : State) (e i : Nat) : Bool :=
  let g := s.eng e
  (g.slot i).busyBy != 0 && !(g.halted && (g.slot i).busyBy == 1 && g.queue.any (fun p => p.slot == i) &&
    !(g.stream.toList ++ g.writeBack).any fun p => p.slot == i)

/-- What a ready burst waits on: 1 the tile's token, 0 BUSY of a slot, 2 a staging buffer, 3 an orbit's finishes; none where it
can start (12 R288, 10 R239). -/
def burstWaits (s : State) (c : Nat) : Option Nat :=
  let x := s.dch c
  match x.desc with
  | none => none
  | some d =>
    if dMode d = 3 ∧ (s.token (handoverTile s x)).state ≠ 1 then some 1
    else if x.readBytes = 0 ∧ ((dSlots d).any fun e => s.slotHeld e.1 e.2) = true then some 0
    else if dMode d = 5 then
      match finishTarget s c x d with
      | some b => if stagingHeld s b x.frame then some 2 else none
      | none => none
    else if drainWaits s x d then some 3
    else none

/-- Round robin: the first channel above the one granted last, else the lowest. -/
def nextAfter (last : Option Nat) (cs : List Nat) : Option Nat :=
  match last with
  | some l => match cs.find? (l < ·) with | some c => some c | none => cs.head?
  | none => cs.head?

/-- The channel granted among those eligible: the lowest PRIO, round robin within it (12 R287). -/
def grantChannel (s : State) (cs : List Nat) : Option Nat :=
  let prio := fun c => match (s.dch c).desc with | some d => dPrio d | none => 3
  (List.range 4).findSome? fun k => nextAfter (tfind s.dma.granted k) (cs.filter fun c => prio c == k)

/-- The channels whose next burst waits for nothing. -/
def State.startable (s : State) : List Nat := (List.range 64).filter fun c => burstReady s c && (burstWaits s c).isNone

/-! ### The ports below CT_READ (07 R166, R167, R170, R176) -/

/-- Whether DMA_RD has an eligible request, which goes ahead of the ports below it. -/
def State.dmaReads (s : State) : Bool :=
  s.dmaLive && s.startable.any fun c => match (s.dch c).desc with | some d => readsHbm d | none => false

/-- Whether CAPTURE has an eligible request, which goes ahead of CONTROL. -/
def State.captureWaits (s : State) : Bool :=
  !captureHeld s && match s.cap.wbuf with | r :: _ => s.mayDraw 5 r.bytes.length | [] => false

/-- Whether an eligible request of CAPTURE or CONTROL is granted: no port ahead of it has an eligible one (07 R170). -/
def State.grantedLow (s : State) (port n : Nat) : Bool :=
  s.granted port n && !s.dmaWrites && !s.dmaReads && (port != 6 || !s.captureWaits)

/-- CAPTURE_RUN_WRITE: `dt` core cycles on, the oldest run of the capture writer is stored, once its regulator takes it, or, where
that has not been within 2 µs, dropped with EV_CAP_DROP; writes are held during shedding and a freeze (07 R166, R167, R170). -/
def execCaptureRunWrite (dt : Nat) (s : State) : Host.Outcome State Fault Refusal :=
  let s := s.advance dt
  .next (
    if captureHeld s ∨ s.hbm.state ≠ 0 then s
    else match s.cap.wbuf with
      | [] => s
      | r :: rest =>
        let late := decide (r.since + 2000 < s.cycle)
        if !late && !s.grantedLow 5 r.bytes.length then s
        else
          let s := { s with cap := { s.cap with wbuf := rest } }
          match s.progGen r.gen with
          | none => s
          | some p =>
            let n := r.block * 256 / p.n
            match tfind s.ch.begunTerms n, p.region 5 with
            | some b, some ring =>
              if late then captureCount n (raise 645 { s with cap := { s.cap with drops := satInc 32 s.cap.drops } })
              else captureCount n (storeCapture p b ring (p.region 6) r s)
            | _, _ => s)

/-- HBM_SCRUB: the next granule is read through the CONTROL port, checked and corrected (07 R170, R176). -/
def execHbmScrub (found b : Nat) (s : State) (held : List HeldRequest := []) : Host.Outcome State Fault Refusal :=
  .next (if s.grantedLow 6 64 ∧ s.eff 0x0700 = 1 then
      let a := s.hbm.scrubNext
      let s := s.access 6 false [(a, 64)]
      scrubResult found b held a
        { s with hbm := { s.hbm with scrubNext := (a + 64) % hbmCapacity s.fuses.variant } }
    else s)

end Sys2Proof.Machine
end

