-- ==== Sys2Proof/Machine/TimeBase.lean ====
section
/-! DEFINITION. Stepping, measuring and steering the time bases, PPS_IN and REF10M_IN, the pulse outputs, the alarms and the
time-base commands (02_time_bases.md R20 to R33, R45 to R49). -/

namespace Sys2Proof.Machine

/-! ### Offset units (02 R19, R27) -/

/-- One unit of a base's count in offset units. -/
def countUnits : Int := 250
/-- One nanosecond in offset units. -/
def nsOffset : Int := 2 ^ 33 * 125
/-- One picosecond in offset units. -/
def psOffset : Int := 2 ^ 30

/-- The running count of base `n`, in offset units. -/
def State.nowUnits (s : State) (n : Nat) : Int := (s.tb n).count * countUnits

/-- Changes a base. -/
def setMode (n : Nat) (m : TbMode) (s : State) : State := s.onTb n fun b => { b with mode := m }

/-- Event `k` of base `n` (02 Table 2.5). -/
def tbEvent (n k : Nat) (s : State) : State := raise (704 + 8 * n + k) s

/-! ### Alarms (02 R46, R47) -/

/-- One of the 16 alarms. -/
def State.alarm (s : State) (i : Nat) : Option Alarm := tfind s.alarms i

/-- An alarm acts (02 R46), and wakes the device from DOZE where its base is on the wake list (17 Table 17.4). -/
def alarmActs (i : Nat) (a : Alarm) (s : State) : State :=
  let n := i / 4
  let s := if bit a.mask 0 then tbEvent n 5 s else s
  let s := if bit a.mask 1 then calStrobe a.groups s.cycle true s else s
  let s := if bit a.mask 2 then captureTrigger s else s
  if s.pwr.state = .doze ∧ bit s.pwr.wakeTb n = true ∨
      s.asking = true ∧ s.pwr.target = .doze ∧ bit (s.eff 0x0B05) n = true then wakeSource 2 s else s

/-- The next time of a periodic alarm: one period on, or, after a step, the first on its grid after the new time. -/
def nextAlarm (a : Alarm) (now : Nat) (stepped : Bool) : Nat :=
  let p := a.period * nsUnit
  if stepped then a.time + ((now - a.time) / p + 1) * p else a.time + p

/-- Fires an alarm that its base has reached or passed. -/
def fireAlarm (stepped : Bool) (s : State) (i : Nat) : State :=
  match s.alarm i with
  | some a =>
    let b := s.tb (i / 4)
    if b.hasTime && decide (a.time ≤ b.count) then
      alarmActs i a { s with alarms :=
        if a.period = 0 then tdel s.alarms i else tput s.alarms i { a with time := nextAlarm a b.count stepped } }
    else s
  | none => s

/-- The alarms of the bases for which `p` holds fire, in ascending number. -/
def fireAlarms (p : Nat → Bool) (stepped : Bool) (s : State) : State :=
  ((List.range 16).filter fun i => p (i / 4)).foldl (fireAlarm stepped) s

/-- ALARM_FIRE: after `dt` core cycles one or more bases reach an alarm time. -/
def execAlarmFire (dt : Nat) (s : State) : Host.Outcome State Fault Refusal :=
  .next (fireAlarms (fun _ => true) false (s.advance dt))

/-! ### Steps (02 R21, R28, R32, R33) -/

/-- The final reply of a pending TB_STEP or TB_RESTEP. -/
def stepReply (n : Nat) (s : State) : State :=
  let b := s.tb n
  let s := finishWork (fun w => w == .tbStep n) .ok (be 2 b.lastEpoch ++ [0, 0]) s
  finishWork (fun w => w == .tbRestep n) .ok (be 2 b.lastEpoch ++ [0, 0] ++ be 8 (ofSigned 64 b.stepNs)) s

/-- The next epoch id (02 R21). -/
def nextEpochId (n : Nat) : Nat := if n < 65535 then n + 1 else 1

/-- The increment of a base from its two corrections; the rounding is free (log entry 8). -/
def TimeBase.steer (b : TimeBase) : TimeBase :=
  let d := b.nominalDen * b.rateDen
  let n := (d : Int) + b.nominalNum * b.rateDen + b.rateNum * b.nominalDen
  { b with increment := (freeDiv (nsUnit * n) d).toNat }

/-- In HOLDOVER the increment keeps its last value, and an UNSET base runs at the nominal one (02 R20, R29). -/
def TimeBase.steerLive (b : TimeBase) : TimeBase :=
  match b.mode with
  | .locking | .locked => b.steer
  | _ => b

/-- A base that steps to a count. The times it already took move with it. DESIGN CHOICE (log entry 119): the step amount is
counted from the time the base reported, which is 0 before its first step. -/
def TimeBase.stepTo (b : TimeBase) (count : Nat) : TimeBase :=
  let count := count % tbWrap
  let moved := ((count : Int) - b.count) * countUnits
  TimeBase.steer { b with
      mode := .locking, count := count, lastEpoch := nextEpochId b.lastEpoch, acc := 0, inWindow := 0, rejectedRun := 0
      stepNs := freeDiv ((count : Int) - b.reported) nsUnit, stepWait := none, ppsOut := none, ppsHold := some count
      syncWait := b.syncWait.map fun w => (w.1, w.2.1 + moved, w.2.2)
      syncLast := b.syncLast.map fun w => (w.1, w.2.1 + moved, w.2.2)
      delayReq := b.delayReq.map fun w => (w.1, w.2 + moved)
      delayPair := b.delayPair.map fun d => d - moved }

/-- Base `n` steps: the epoch id counts on, the base is LOCKING, EV_TB_STEPPED, and what its new time passes happens: stamps,
alarms and deadlines (02 R33, R39, R44, R47). -/
def stepBase (n count : Nat) (s : State) : State :=
  let old := if (s.tb n).hasTime then some (s.tb n).count else none
  let s := tbEvent n 0 (s.onTb n fun b => b.stepTo count)
  let s := takeStamps (stampsDue s n old) s
  let s := fireAlarms (· == n) true s
  stepReply n (framesDue (orbitsDue s))

/-! ### The servo and the offset rules (02 R28 to R31) -/

/-- The servo for an accepted offset `o` and an interval `i`, both in offset units. -/
def servo (n : Nat) (o i : Int) (s : State) : State :=
  let sh := s.tbKey n 0xE
  let b := s.tb n
  let acc := b.acc + o * 2 ^ (30 - 2 * sh)
  let num := -(acc + o * 2 ^ (30 - sh))
  let den : Nat := (2 ^ 30 * i).toNat
  let lim : Int := s.tbKey n 0xA
  let beyond := decide (lim * (den : Int) < (num.natAbs * 10 ^ 9 : Nat))
  let rate : Int × Nat := if beyond then ((if num < 0 then -lim else lim), 10 ^ 9) else (num, den)
  let s := s.onTb n fun b => { b with acc := acc, rateNum := rate.1, rateDen := rate.2 }.steer
  if beyond then tbEvent n 4 s else s

/-- An accepted offset: the servo, and the state of Table 2.1. -/
def acceptOffset (n : Nat) (o i : Int) (s : State) : State :=
  let inLock := decide (o.natAbs ≤ (s.tbKey n 9 : Nat) * nsOffset.toNat)
  let s := s.onTb n fun b =>
    { b with accepted := satInc 32 b.accepted, rejectedRun := 0, lastOffset := o
             mode := if b.mode = .holdover then .locking else b.mode
             inWindow := if !inLock then 0 else if b.mode = .holdover then 1 else b.inWindow + 1 }
  let s := servo n o i s
  if (s.tb n).mode = .locking ∧ 16 ≤ (s.tb n).inWindow then tbEvent n 1 (setMode n .locked s) else s

/-- A rejected offset, which is still the last offset that TB_STATUS reports (02 R30, R48; log entry 43). -/
def rejectOffset (n : Nat) (o : Int) (s : State) : State :=
  let s := s.onTb n fun b =>
    { b with rejected := satInc 32 b.rejected, rejectedRun := b.rejectedRun + 1, lastOffset := o }
  if (s.tb n).mode ≠ .holdover ∧ s.tbKey n 6 ≤ (s.tb n).rejectedRun then tbEvent n 3 (setMode n .holdover s) else s

/-- An offset measurement of a base that has time. -/
def judgeOffset (n : Nat) (o i : Int) (s : State) : State :=
  if s.tbKey n 5 * nsOffset.toNat < o.natAbs then rejectOffset n o s else acceptOffset n o i s

/-- Counts an accepted measurement. -/
def countAccepted (n : Nat) (s : State) : State := s.onTb n fun b => { b with accepted := satInc 32 b.accepted }

/-- The base steps by an offset that it has just measured. -/
def stepByOffset (n : Nat) (o : Int) (count : Nat) (s : State) : State :=
  stepBase n count (s.onTb n fun b => { b with lastOffset := o })

/-- The count that an offset corrects to. -/
def correctedCount (b : TimeBase) (o : Int) : Nat := ((b.count : Int) - o / countUnits).toNat

/-- An offset measurement of a PTP base (02 R28, R30, R32). -/
def measurePtp (n : Nat) (o : Int) (s : State) : State :=
  let b := s.tb n
  match b.mode with
  | .disabled => s
  | .unset =>
    let s := countAccepted n s
    if s.tbKey n 8 = 1 then stepByOffset n o (correctedCount b o) s else s
  | _ =>
    if b.stepWait = some .measure then stepByOffset n o (correctedCount b o) (countAccepted n s)
    else judgeOffset n o b.syncInterval s

/-- The master of a base is lost: HOLDOVER (02 R31). -/
def masterLost (n : Nat) (s : State) : State :=
  match (s.tb n).mode with
  | .locking | .locked =>
    tbEvent n 2 (s.onTb n fun b => { b with mode := .holdover, timeouts := satInc 32 b.timeouts })
  | _ => s

/-- TB_SYNC_TIMEOUT: no accepted Sync or edge has arrived for TBn_SYNC_TIMEOUT_MS. -/
def execTbSyncTimeout (n : Nat) (s : State) : Host.Outcome State Fault Refusal :=
  .next (if n < 4 then masterLost n s else s)

/-! ### PPS_IN and REF10M_IN (02 R26, R29) -/

/-- Whether the base takes PPS_IN. -/
def State.onPps (s : State) (n : Nat) : Bool := s.tbKey n 0 == 2 || s.tbKey n 0 == 3

/-- nominal_correction from a second of REF10M_IN in which the core clock counted `cycles`; 0 is no whole second. -/
def nominal (n cycles : Nat) (s : State) : State :=
  if s.tbKey n 0 = 2 ∧ (s.tb n).refMissing = false ∧ 0 < cycles then
    s.onTb n fun b => { b with nominalNum := 10 ^ 9 - (cycles : Int), nominalDen := cycles }.steerLive
  else s

/-- One base at a rising edge of PPS_IN. DESIGN CHOICE (log entries 119, 120): TB_RESTEP at the next measurement rounds a time
half-way between two seconds up, and the interval I of 02 R29 is the core cycles between the edges, 1 ns each. -/
def ppsEdge (refCycles : Nat) (s : State) (n : Nat) : State :=
  if !s.onPps n || (s.tb n).mode == .disabled then s
  else
    let gap := match (s.tb n).ppsLast with | some c => s.cycle - c | none => 10 ^ 9
    let s := nominal n refCycles s
    let s := if 1500000000 < gap then masterLost n s else s
    let s := s.onTb n fun b => { b with ppsLast := some s.cycle }
    let b := s.tb n
    let whole := fun sec => sec * 10 ^ 9 * nsUnit
    let second := 10 ^ 9 * nsUnit
    match b.stepWait with
    | some (.first sec) | some (.restep sec) => stepBase n (whole sec) s
    | some .measure =>
      let dest := whole ((b.count + second / 2) / second)
      stepByOffset n (((b.count : Int) - dest) * countUnits) dest (countAccepted n s)
    | none =>
      if b.mode = .unset then
        let s := countAccepted n s
        if s.tbKey n 8 = 1 then stepBase n (whole (s.tbKey n 0xF)) s else s
      else
        let frac := b.count % second
        let o : Int := if 2 * frac ≤ second then frac else (frac : Int) - second
        judgeOffset n (o * countUnits) (gap * nsOffset) s

/-- PPS_IN_EDGE: after `dt` core cycles PPS_IN rises; `refCycles` are the core cycles of the last whole second counted on
REF10M_IN, 0 while there is none. -/
def execPpsInEdge (dt refCycles : Nat) (s : State) : Host.Outcome State Fault Refusal :=
  .next (if s.ctlLive then (List.range 4).foldl (ppsEdge refCycles) (s.advance dt) else s.advance dt)

/-- PPS_IN_LOST: after `dt` core cycles no edge has arrived for 1.5 s. -/
def execPpsInLost (dt : Nat) (s : State) : Host.Outcome State Fault Refusal :=
  let s := s.advance dt
  .next ((List.range 4).foldl (fun s n =>
    match (s.tb n).ppsLast with
    | some c => if s.onPps n && decide (c + 1500000000 ≤ s.cycle) then masterLost n s else s
    | none => s) s)

/-- EV_TB_REF_MISSING: REF10M_IN has been absent for 2 s: the bases with source 2 measure from PPS_IN alone. -/
def execEvTbRefMissing (s : State) : Host.Outcome State Fault Refusal :=
  .next ((List.range 4).foldl (fun s n =>
    if s.tbKey n 0 = 2 ∧ (s.tb n).mode ≠ .disabled ∧ (s.tb n).refMissing = false then
      tbEvent n 7 (s.onTb n fun b => { b with refMissing := true })
    else s) s)

/-- REF10M_RETURN: REF10M_IN is back, and its first whole second has lasted `refCycles` core cycles. -/
def execRef10mReturn (refCycles : Nat) (s : State) : Host.Outcome State Fault Refusal :=
  .next ((List.range 4).foldl (fun s n =>
    if s.tbKey n 0 = 2 ∧ (s.tb n).refMissing = true then
      nominal n refCycles (s.onTb n fun b => { b with refMissing := false })
    else s) s)

/-! ### Pulse outputs (02 R45) -/

/-- PPS_OUT_PULSE: after `dt` core cycles base `n` carries a whole second past, or an orbit stamp instant, and TB_PPS_OUT[n]
rises. -/
def execPpsOutPulse (n dt : Nat) (s : State) : Host.Outcome State Fault Refusal :=
  let s := s.advance dt
  .next (
    if 4 ≤ n then s
    else if s.tbKey n 0xC = 1 then
      let b := s.tb n
      if b.hasTime && decide (b.count % (10 ^ 9 * nsUnit) < max dt 1 * b.increment) &&
         (match b.ppsHold with | some c => decide (c / (10 ^ 9 * nsUnit) < b.count / (10 ^ 9 * nsUnit)) | none => true)
      then pulseDue n (s.onTb n fun b => { b with ppsHold := none })
      else s
    else if s.tbKey n 0xC = 2 then stampsReached dt s
    else s)

/-- PPS_OUT_PULSE_END: after `dt` core cycles the width of the pulse on TB_PPS_OUT[n] has passed. -/
def execPpsOutPulseEnd (n dt : Nat) (s : State) : Host.Outcome State Fault Refusal :=
  let s := s.advance dt
  .next (match (s.tb n).ppsOut with
    | some e => if e ≤ (s.tb n).count then s.onTb n fun b => { b with ppsOut := none } else s
    | none => s)

/-! ### The commands (13 Table 13.7) -/

/-- TB_CONFIGURE: the four keys together, by the rules of SET_SETTING (02 R22); a half-port that runs at another lane rate
than Table 2.3 gives is rejected whatever the source (R27). -/
def tbConfigure (c : Ctx) (s : State) : Verdict :=
  let n := fld c.p 0 1
  let hp := fld c.p 2 1
  let keys := (List.range 4).map fun i => (0x0500 + 16 * n + i, fld c.p (1 + i) 1)
  let rt := keys.foldl (fun t e => tput t e.1 e.2) s.set.runtime
  if 3 < n ∨ fld c.p 5 3 ≠ 0 then .no .badParam
  else if !(keys.all fun e => valueOk s.fuses e.1 e.2) then .no .badParam
  else if cfgRate (s.hp hp).trained ≠ 0 then .no .badParam
  else match firstRefused s (s.withRuntime rt) (keys.map (·.1)) with
    | some st => .no st
    | none => .did fun s => applyRuntime (keys.foldl (fun t e => tput t e.1 e.2) s.set.runtime) s

/-- The seconds, and the whole time in a base's count, of a 96-bit TIME field; none where its nanoseconds are out of range. -/
def timeField (p : Bytes) (off : Nat) : Option (Nat × Nat) :=
  let sec := fld p off 6
  let ns := fld p (off + 6) 4
  if ns < 10 ^ 9 then some (sec, (sec * 10 ^ 9 + ns) * nsUnit + fld p (off + 10) 2 * 2 ^ 16) else none

/-- TB_STEP (02 R26, R28, R32). -/
def tbStep (c : Ctx) (s : State) : Verdict :=
  let n := fld c.p 0 1
  if 3 < n ∨ fld c.p 1 1 ≠ 0 then .no .badParam
  else match timeField c.p 2 with
    | none => .no .badParam
    | some (sec, time) =>
      if (s.tb n).mode ≠ .unset then .no .badState
      else if (s.tb n).stepWait.isSome then .no .busy
      else if s.onPps n then .later (.tbStep n) fun s => s.onTb n fun b => { b with stepWait := some (.first sec) }
      else .done fun s => let s := stepBase n time s; (s, be 2 (s.tb n).lastEpoch ++ [0, 0])

/-- TB_RESTEP (02 R26, R32). DESIGN CHOICE (log entry 119): its TIME must hold fewer than 10^9 nanoseconds in FORM 1 too, which
does not use it. -/
def tbRestep (c : Ctx) (s : State) : Verdict :=
  let n := fld c.p 0 1
  let form := fld c.p 1 1
  if 3 < n ∨ 1 < form then .no .badParam
  else match timeField c.p 2 with
    | none => .no .badParam
    | some (sec, time) =>
      if (s.tb n).hasTime = false then .no .badState
      else if (s.tb n).stepWait.isSome then .no .busy
      else if form = 1 then .later (.tbRestep n) fun s => s.onTb n fun b => { b with stepWait := some .measure }
      else if s.onPps n then .later (.tbRestep n) fun s => s.onTb n fun b => { b with stepWait := some (.restep sec) }
      else .done fun s =>
        let s := stepBase n time s
        (s, be 2 (s.tb n).lastEpoch ++ [0, 0] ++ be 8 (ofSigned 64 (s.tb n).stepNs))

/-- TB_STATUS (02 R48). -/
def tbStatus (c : Ctx) (s : State) : Verdict :=
  let n := fld c.p 0 1
  if 3 < n ∨ fld c.p 1 1 ≠ 0 then .no .badParam
  else
    let b := s.tb n
    .answer (be 1 b.mode.ctorIdx ++ [(0 : Byte)] ++ be 2 b.epoch ++ timeBytes b.reported ++
      be 8 (ofSigned 64 (freeDiv b.lastOffset nsOffset.toNat)) ++
      be 4 (ofSigned 32 (freeDiv (b.rateNum * 10 ^ 12) b.rateDen)) ++ be 8 (ofSigned 64 b.stepNs) ++
      be 8 (match b.master with | some m => m.1 | none => 0) ++ be 2 (ofSigned 16 b.utcOffset) ++ ([0, 0] : Bytes) ++
      be 4 b.accepted ++ be 4 b.rejected ++ be 4 b.violations ++ be 4 b.timeouts)

/-- TB_ALARM, which with MASK 0 disarms (02 R46). -/
def tbAlarm (c : Ctx) (s : State) : Verdict :=
  let i := fld c.p 0 1
  let mask := fld c.p 1 1
  let period := fld c.p 16 8
  if 15 < i ∨ fld c.p 3 1 ≠ 0 then .no .badParam
  else if mask = 0 then .did fun s => { s with alarms := tdel s.alarms i }
  else match timeField c.p 4 with
    | none => .no .badParam
    | some (_, time) =>
      if 7 < mask ∨ (period ≠ 0 ∧ (period < 1000 ∨ 10 ^ 12 < period)) then .no .badParam
      else if (s.tb (i / 4)).hasTime = false then .no .badState
      else if time < (s.tb (i / 4)).count + 1000 * nsUnit then .no .badParam
      else .did fun s =>
        { s with alarms := tput s.alarms i { time := time, period := period, mask := mask, groups := fld c.p 2 1 } }

end Sys2Proof.Machine
end

