-- ==== Sys2Proof/Machine/Ptp.lean ====
section
/-! DEFINITION. The PTP slave of a base: messages, master selection and Delay_Req (02_time_bases.md R22 to R27; IEEE 1588-2019,
which R23 cites, for the message layouts). -/

namespace Sys2Proof.Machine

/-! ### Message fields -/

/-- messageType. -/
def ptpType (m : Bytes) : Nat := fld m 0 1 % 16
/-- sourcePortIdentity: clockIdentity and portNumber. -/
def ptpSource (m : Bytes) : Nat × Nat := (fld m 20 8, fld m 28 2)
/-- sequenceId. -/
def ptpSeq (m : Bytes) : Nat := fld m 30 2
/-- correctionField in offset units. -/
def ptpCorrection (m : Bytes) : Int := toSigned 64 (fld m 8 8) * (2 ^ 17 * 125)
/-- twoStepFlag. -/
def ptpTwoStep (m : Bytes) : Bool := bit (fld m 6 1) 1
/-- logMessageInterval. -/
def ptpLog (m : Bytes) : Int := toSigned 8 (fld m 33 1)
/-- The timestamp at offset 34, in offset units. -/
def ptpTime (m : Bytes) : Int := ((fld m 34 6 * 10 ^ 9 + fld m 40 4 : Nat) : Int) * nsOffset

/-- The bytes that a supported message needs (IEEE 1588-2019). -/
def ptpLength (type : Nat) : Nat :=
  match type with | 9 => 54 | 11 => 64 | _ => 44

/-- Whether versionPTP, messageLength and the timestamp are well formed. DESIGN CHOICE (log entry 120): a timestamp of 10^9
nanoseconds or more is malformed, which the list of 02 R25 does not name. -/
def ptpWellFormed (m : Bytes) : Bool :=
  fld m 1 1 % 16 == 2 && decide (ptpLength (ptpType m) ≤ fld m 2 2) && decide (fld m 2 2 ≤ m.length) &&
    (ptpType m == 11 || ptpType m == 1 || decide (fld m 40 4 < 10 ^ 9))

/-- The base's own port identity on half-port `h`: its MAC address as an EUI-64, port 1. -/
def ownIdentity (s : State) (h : Nat) : Nat × Nat :=
  let mac := s.macOf h
  (mac / 2 ^ 24 * 2 ^ 40 + 0xFFFE * 2 ^ 24 + mac % 2 ^ 24, 1)

/-- The constants of Table 2.3 for the FEC setting that a half-port runs with, in ps: receive and transmit. -/
def planeConstants (s : State) (h : Nat) : Int × Int := if cfgFec (s.hp h).trained then (82400, 27900) else (31600, 18200)

/-- The receive timestamp of a message whose timestamp point passed `ago` picoseconds before now (02 R27). -/
def rxTime (s : State) (n h ago : Nat) : Int :=
  s.nowUnits n - ago * psOffset - (planeConstants s h).1 * psOffset + toSigned 64 (s.tbKey n 0xB) * psOffset

/-- A dropped PTP message (02 R25). -/
def ptpViolation (s : State) (n : Nat) : State := tbEvent n 6 (s.onTb n fun b => { b with violations := satInc 32 b.violations })

/-! ### Sync and Delay (02 R23, R28) -/

/-- An interval in offset units from a logMessageInterval. -/
def logInterval (log : Int) : Int := if log < 0 then 10 ^ 9 * nsOffset / 2 ^ (-log).toNat else 10 ^ 9 * nsOffset * 2 ^ log.toNat

/-- A Sync whose origin time is known: a measurement follows once the path delay is known. DESIGN CHOICE (log entry 120): the
interval I of 02 R29 is the difference of the origin times of successive Syncs, for the first, or one not after the last,
that of logMessageInterval. -/
def syncDone (n : Nat) (t1 t2 log : Int) (s : State) : State :=
  let b := s.tb n
  let path := b.pathDelay.orElse fun _ => b.delayPair.map fun p => (t2 - t1 + p) / 2
  let i := match b.syncLast with | some (old, _) => if old < t1 then t1 - old else logInterval log | none => logInterval log
  let s := s.onTb n fun b =>
    { b with syncInterval := i, syncLast := some (t1, t2 - t1, path.isSome)
             pathDelay := path, delayPair := none }
  match path with
  | some d => measurePtp n (t2 - t1 - d) s
  | none => s

/-- A Sync from the selected master. -/
def ptpSync (h ago : Nat) (m : Bytes) (s : State) (n : Nat) : State :=
  if (s.tb n).master ≠ some (ptpSource m) then s
  else
    let t2 := rxTime s n h ago
    if ptpTwoStep m then
      s.onTb n fun b =>
        { b with syncWait := (ptpSeq m, t2, ptpCorrection m, ptpLog m, s.cycle) ::
            b.syncWait.filter fun w => w.1 != ptpSeq m && decide (s.cycle ≤ w.2.2.2.2 + 10 ^ 9) }
    else syncDone n (ptpTime m + ptpCorrection m) t2 (ptpLog m) s

/-- A Follow_Up from the selected master. -/
def ptpFollowUp (m : Bytes) (s : State) (n : Nat) : State :=
  if (s.tb n).master ≠ some (ptpSource m) then s
  else match (s.tb n).syncWait.find? fun w => w.1 == ptpSeq m && decide (s.cycle ≤ w.2.2.2.2 + 10 ^ 9) with
    | some (seq, t2, corr, log, _) =>
      syncDone n (ptpTime m + corr + ptpCorrection m) t2 log
        (s.onTb n fun b => { b with syncWait := b.syncWait.filter fun w => w.1 != seq })
    | none => ptpViolation s n

/-- Whether the base ever sent a Delay_Req of a sequenceId: it counts them up from 0 (02 R25). -/
def TimeBase.sentSeq (b : TimeBase) (seq : Nat) : Bool := decide (seq < min b.delaySent (2 ^ 16))

/-- A Delay_Resp (02 R25): one that names another port is ignored, and so is one to an earlier Delay_Req than the one that
waits, or from a master not selected; one to no Delay_Req that the base sent is a violation. -/
def ptpDelayResp (h : Nat) (m : Bytes) (s : State) (n : Nat) : State :=
  if (fld m 44 8, fld m 52 2) ≠ ownIdentity s h then s
  else if !(s.tb n).sentSeq (ptpSeq m) then ptpViolation s n
  else match (s.tb n).delayReq with
    | some (seq, t3) =>
      if seq ≠ ptpSeq m ∨ (s.tb n).master ≠ some (ptpSource m) then s
      else
        let t4 := ptpTime m - ptpCorrection m
        match (s.tb n).syncLast with
        | some (t1, d21, used) =>
          let d := (d21 + (t4 - t3)) / 2
          let s := s.onTb n fun b => { b with delayReq := none, pathDelay := some d, syncLast := some (t1, d21, true) }
          if used then s else measurePtp n (d21 - d) s
        | none => s.onTb n fun b => { b with delayReq := none, delayPair := some (t4 - t3) }
    | none => s

/-! ### Master selection (02 R23: the default BMCA over Announce messages) -/

/-- Whether data set `a` is better than `b`. -/
def Foreign.better (a b : Foreign) : Bool :=
  if a.grandmaster = b.grandmaster then
    if a.steps = b.steps then decide (a.clock < b.clock) || (a.clock == b.clock && decide (a.port < b.port))
    else decide (a.steps < b.steps)
  else if a.priority1 ≠ b.priority1 then decide (a.priority1 < b.priority1)
  else if a.quality ≠ b.quality then decide (a.quality < b.quality)
  else if a.priority2 ≠ b.priority2 then decide (a.priority2 < b.priority2)
  else decide (a.grandmaster < b.grandmaster)

/-- The best of the table. -/
def bestForeign : List Foreign → Option Foreign
  | [] => none
  | f :: fs => match bestForeign fs with
    | some g => if g.better f then some g else some f
    | none => some f

/-- The data set of an Announce. -/
def announceSet (s : State) (m : Bytes) : Foreign :=
  { clock := (ptpSource m).1, port := (ptpSource m).2, priority1 := fld m 47 1, quality := fld m 48 4, priority2 := fld m 52 1
    grandmaster := fld m 53 8, steps := fld m 61 2, utc := toSigned 16 (fld m 44 2), seen := s.cycle
    window := (4 * logInterval (ptpLog m) / nsOffset).toNat }

/-- The foreign-master table with an Announce: its own entry replaced, stale ones gone, at most 4 kept, the best ones. -/
def withForeign (s : State) (f : Foreign) (t : List Foreign) : List Foreign :=
  let t := t.filter fun g => !(g.clock == f.clock && g.port == f.port) && decide (s.cycle ≤ g.seen + g.window)
  if t.length < 4 then t ++ [f]
  else match t.find? fun g => t.all fun x => x == g || x.better g with
    | some worst => if f.better worst then (t.filter (· != worst)) ++ [f] else t
    | none => t

/-- An Announce. DESIGN CHOICE (log entry 120): a master is eligible from its first Announce on. -/
def ptpAnnounce (m : Bytes) (s : State) (n : Nat) : State :=
  let t := withForeign s (announceSet s m) (s.tb n).foreign
  let best : Option Foreign := bestForeign t
  let pick : Option (Nat × Nat) := best.map fun (f : Foreign) => (f.clock, f.port)
  s.onTb n fun b =>
    let b := { b with foreign := t, utcOffset := match best with | some f => f.utc | none => b.utcOffset }
    if b.master = pick then b
    else { b with master := pick, syncWait := [], syncLast := none, delayReq := none, delayPair := none, pathDelay := none }

/-! ### Messages -/

/-- One base takes a message of its domain. -/
def ptpTake (h ago : Nat) (m : Bytes) (s : State) (n : Nat) : State :=
  if !(([0, 1, 8, 9, 11] : List Nat).contains (ptpType m)) || !ptpWellFormed m then ptpViolation s n
  else match ptpType m with
    | 0 => ptpSync h ago m s n
    | 8 => ptpFollowUp m s n
    | 9 => ptpDelayResp h m s n
    | 11 => ptpAnnounce m s n
    | _ => s

/-- A PTP message arrives on half-port `h` with a transport: every base that runs PTP there in its domain takes it; one too
short for the header is a violation of each base that uses the transport there (02 R25). Its timestamp point passed `ago`
picoseconds before now. -/
def ptpMessage (h ago : Nat) (layer2 : Bool) (m : Bytes) (s : State) : State :=
  let bases := (s.ptpBases h (b2n layer2)).filter fun n => (s.tb n).mode != .disabled
  if m.length < 34 then bases.foldl ptpViolation s
  else (bases.filter fun n => s.tbKey n 2 == fld m 4 1).foldl (ptpTake h ago m) s

/-- Whether half-port `h` can receive PTP now. -/
def State.ptpLive (s : State) (h : Nat) : Bool := s.ctlLive && s.ethIn h && cfgRate (s.hp h).trained == 0

/-- A message of one type, whose timestamp point passes `dt` core cycles on. -/
def ptpRow (type h : Nat) (layer2 : Bool) (dt : Nat) (m : Bytes) (s : State) : State :=
  let s := s.advance dt
  if s.ptpLive h && ptpType m == type then ptpMessage h 0 layer2 m s else s

/-- PTP_SYNC: a Sync arrives on half-port `h`, over IEEE 802.3 or UDP, `dt` core cycles on. -/
def execPtpSync (h : Nat) (layer2 : Bool) (dt : Nat) (m : Bytes) (s : State) : Host.Outcome State Fault Refusal :=
  .next (ptpRow 0 h layer2 dt m s)

/-- PTP_FOLLOW_UP. -/
def execPtpFollowUp (h : Nat) (layer2 : Bool) (dt : Nat) (m : Bytes) (s : State) : Host.Outcome State Fault Refusal :=
  .next (ptpRow 8 h layer2 dt m s)

/-- PTP_ANNOUNCE. -/
def execPtpAnnounce (h : Nat) (layer2 : Bool) (dt : Nat) (m : Bytes) (s : State) : Host.Outcome State Fault Refusal :=
  .next (ptpRow 11 h layer2 dt m s)

/-- PTP_DELAY_RESP. -/
def execPtpDelayResp (h : Nat) (layer2 : Bool) (dt : Nat) (m : Bytes) (s : State) : Host.Outcome State Fault Refusal :=
  .next (ptpRow 9 h layer2 dt m s)

/-- The Delay_Req message of base `n` (IEEE 1588-2019). -/
def delayReqBytes (s : State) (n h : Nat) : Bytes :=
  let id := ownIdentity s h
  [0x01, 0x12] ++ be 2 44 ++ be 1 (s.tbKey n 2) ++ List.replicate 15 0 ++ be 8 id.1 ++ be 2 id.2 ++
    be 2 (s.tb n).delaySent ++ [1, 0x7F] ++ List.replicate 10 0

/-- DELAY_REQ_SEND: `dt` core cycles on, the interval of base `n` has passed and a Delay_Req is sent. -/
def execDelayReqSend (n dt : Nat) (s : State) : Host.Outcome State Fault Refusal :=
  let s := s.advance dt
  let h := s.tbKey n 1
  .next (
    if n < 4 ∧ s.tbKey n 0 = 1 ∧ s.ptpLive h = true ∧ (s.tb n).master.isSome = true ∧ (s.tb n).mode ≠ .disabled then
      let msg := delayReqBytes s n h
      let t3 := s.nowUnits n + (planeConstants s h).2 * psOffset
      let s := s.onTb n fun b => { b with delayReq := some (b.delaySent % 2 ^ 16, t3), delaySent := b.delaySent + 1 }
      if s.tbKey n 3 = 1 then sendFrame h (ethFrame 0x011B19000000 (s.macOf h) none 0x88F7 msg) s
      else sendUdp h 0x01005E000181 none 0 0xE0000181 319 319 msg s
    else s)

end Sys2Proof.Machine
end

