-- ==== Sys2Proof/Machine/Ingest.lean ====
section
/-! DEFINITION. Frames received on half-ports and on the Management Port, and ingest (04_ethernet_and_packets.md R77, R79 to
R88, R97, R98, R447; 02 R36, R38, R40; 11 R268). -/

namespace Sys2Proof.Machine

/-! ### Ingest packets (04 R80 to R88) -/

/-- The counters of a path in the order of 04 R88. -/
inductive IngCtr where
  | packets | samples | keepAlives | late | early | duplicate | mismatch | gaps | saturated | dataInvalid | rejoins

/-- Changes the ingest state of a path. -/
def State.onIng (s : State) (path : Nat) (f : IngestPath → IngestPath) : State :=
  { s with ing := { s.ing with paths := tmod s.ing.paths path {} f } }

/-- Adds to a counter of a path. -/
def ingAdd (path : Nat) (c : IngCtr) (k : Nat) (s : State) : State :=
  s.onIng path fun q => { q with counters := tmod q.counters c.ctorIdx 0 fun n => satAdd 32 n k }

/-- Counts one more of a path, where a condition holds, and raises the event of Table 4.5. -/
def ingNote (on : Bool) (path : Nat) (c : IngCtr) (e : Nat) (s : State) : State :=
  if on then raise e (ingAdd path c 1 s) else s

/-- Bits per component in the packet (04 R81). -/
def packetWidth (fmt : Nat) : Nat := if bits fmt 5 4 = 1 then 16 else formatWidth fmt

/-- Components per sample (04 R81). -/
def components (fmt : Nat) : Nat := if bit fmt 0 then 2 else 1

/-- Whether no code of a FORMAT byte is reserved (04 Table 4.4). -/
def formatDefined (fmt : Nat) : Bool := bits fmt 3 1 ≤ 4 && bits fmt 5 4 ≤ 1 && fmt / 64 == 0

/-- The `w` bits at bit offset `off` of a byte string, most significant bit first. -/
def bitsAt (bs : Bytes) (off w : Nat) : Nat := ofBe (padTo 4 (slice bs (off / 8) 4)) / 2 ^ (32 - off % 8 - w) % 2 ^ w

/-- Component `i` of sample data: in container form its low bits count (04 R81). -/
def component (fmt : Nat) (bs : Bytes) (i : Nat) : Int :=
  toSigned (formatWidth fmt) (bitsAt bs (i * packetWidth fmt) (packetWidth fmt))

/-- The 64 samples of a granule's data. -/
def granuleSamples (fmt : Nat) (bs : Bytes) : List (Int × Int) :=
  (List.range 64).map fun k =>
    if bit fmt 0 then (component fmt bs (2 * k), component fmt bs (2 * k + 1)) else (component fmt bs k, 0)

/-- The bytes of a granule's data. -/
def granuleBytes (fmt : Nat) : Nat := 8 * components fmt * packetWidth fmt

/-- A violation by the sender: the half-port's cause INGEST_VIOLATION beside the event (04 R97, R98). -/
def ingViolation (h e : Nat) (s : State) : State := raise e (setHpCause h 14 s)

/-- A packet malformed under step 1 or 6 of Table 4.5. -/
def ingMalformed (h : Nat) (s : State) : State :=
  ingViolation h 981 { s with ing := { s.ing with malformed := satInc 32 s.ing.malformed } }

/-- The slot whose programme owns the orbit of sample `x`, the orbit counted by that programme's own T (04 R84). -/
def State.ownerOf (s : State) (x : Nat) : Option (Nat × Programme) :=
  (List.range 3).findSome? fun i => match (s.slot i).prog with
    | some p => if s.slotAt (x / p.t) = some i then some (i, p) else none
    | none => none

/-- The programme in effect with its slot. -/
def State.effectSlot (s : State) : Option (Nat × Programme) :=
  match s.slotIn .inEffect with
  | some i => match (s.slot i).prog with | some p => some (i, p) | none => none
  | none => none

/-- The programme that judges a packet (04 Table 4.5 step 2, R84, R86): a keep-alive that in effect; a packet of samples the
owner of its first sample, or for an orbit before all of them the one in effect, unless that took effect with none before it: then the
packet counts under step 2 (11 R268). -/
def State.judge (s : State) (x count : Nat) : Option (Nat × Programme) :=
  if count = 0 then s.effectSlot
  else match s.ownerOf x, s.effectSlot with
    | some o, some _ => some o
    | some o, none => if (s.slot o.1).state = .armed then none else some o
    | none, some (i, p) => if x / p.t < (s.slot i).swapOrbit ∧ (s.slot i).fresh = false then some (i, p) else none
    | none, none => none

/-- With no programme in effect, the first packet of the ARMED programme's orbits brings it into effect (11 R268, R270). -/
def firstSwap (x count : Nat) (s : State) : State :=
  match s.slotIn .inEffect, s.slotIn .armed, s.ownerOf x with
  | none, some i, some o => if count ≠ 0 ∧ o.1 = i then programmeSwap s else s
  | _, _, _ => s

/-- The last-seen time of a path, and its return from silence (04 R86). -/
def touchPath (path : Nat) (s : State) : State :=
  let b := s.tb (s.eff 0x0544)
  let was := (tget s.ing.paths path {}).silent
  let s := s.onIng path fun q => { q with lastSeen := some b.ns, lastSeenEpoch := b.epoch, silent := false }
  if was then ingAdd path .rejoins 1 s else s

/-- Whether a granule has been accepted for the path: it is held, or stage A has taken it in an orbit still open. -/
def granuleHeld (s : State) (p : Programme) (path i : Nat) : Bool :=
  thas (tget s.ing.paths path {}).granules i ||
    s.stagePast (s.chan path).runA (s.chan path).nextA (i * 64 / p.t) ((i + 1) * 64)

/-- The granule `k` of a packet's data. -/
def granuleOf (fmt flags : Nat) (data : Bytes) (k : Nat) : Granule :=
  { valid := !bit flags 0, samples := granuleSamples fmt (slice data (k * granuleBytes fmt) (granuleBytes fmt)) }

/-- Places the granules that are new. -/
def placeGranules (path fmt flags first : Nat) (data : Bytes) (new : List Nat) (s : State) : State :=
  s.onIng path fun q =>
    let g := new.foldl (fun (t : Tab Granule) k => tput t (first + k) (granuleOf fmt flags data k)) q.granules
    { q with granules := g }

/-- A packet with new granules is accepted: counters, SEQ and the frontier (04 R85, R87, R88; 02 R38). Only such a packet is
compared with the accepted SEQ before it, becomes that SEQ, and is counted as SATURATED or DATA_INVALID; the path's first has
none before it and is no gap (DESIGN CHOICE, log entry 129). -/
def acceptPacket (path flags seq last granules : Nat) (s : State) : State :=
  let q := tget s.ing.paths path {}
  let gap := match q.lastSeq with | some k => decide (seq ≠ (k + 1) % 2 ^ 32) | none => false
  let s := ingAdd path .packets 1 (ingAdd path .samples (64 * granules) s)
  let s := if gap then ingAdd path .gaps 1 s else s
  let s := if bit flags 1 then ingAdd path .saturated 1 s else s
  let s := if bit flags 0 then ingAdd path .dataInvalid 1 s else s
  let s := s.onIng path fun q => { q with lastSeq := some seq }
  frontierClose { s with orb := { s.orb with frontier := some (max last (s.orb.frontier.getD 0)) } }

/-- Steps 7 and 8 of Table 4.5, granule by granule, against the orbits open when the FCS check completed (04 R84; 02 R40). -/
def placePacket (path i : Nat) (p : Programme) (oldest : Option Nat) (b : Bytes) (s : State) : State :=
  let flags := fld b 6 2
  let first := fld b 8 8 / 64
  let o := (oldest.orElse fun _ => s.orb.oldest).getD 0
  let orbit := fun k => (first + k) * 64 / p.t
  let all := List.range (fld b 16 4 / 64)
  let open' := all.filter fun k => o ≤ orbit k && orbit k ≤ o + 3
  let mine := open'.filter fun k => s.slotAt (orbit k) == some i
  let new := mine.filter fun k => !granuleHeld s p path (first + k)
  let s := ingNote (all.any fun k => decide (orbit k < o)) path .late 978 s
  let s := ingNote (all.any fun k => decide (o + 3 < orbit k)) path .early 979 s
  let s := ingNote (decide (mine.length < open'.length)) path .mismatch 982 s
  let s := ingNote (decide (new.length < mine.length)) path .duplicate 980 s
  match new.getLast? with
  | none => s
  | some k =>
    acceptPacket path flags (fld b 20 4) ((first + k) * 64 + 63) new.length
      (placeGranules path p.format flags first (b.drop 32) new s)

/-- Whether INDEX, COUNT and the length comply with 04 R82 and 02 R36. -/
def packetShapeOk (fmt : Nat) (b : Bytes) : Bool :=
  let x := fld b 8 8
  let n := fld b 16 4
  x % 64 == 0 && n % 64 == 0 && b.length == 32 + n / 64 * granuleBytes fmt && decide (x + n ≤ 2 ^ 64)

/-- An ingest packet drained from half-port `h` (04 Table 4.5). -/
def ingestPacket (h : Nat) (oldest : Option Nat) (b : Bytes) (s : State) : State :=
  if b.length < 32 ∨ fld b 0 2 ≠ 0x4749 ∨ fld b 2 1 ≠ 1 then ingMalformed h s
  else
    let path := fld b 4 2
    let count := fld b 16 4
    let s := firstSwap (fld b 8 8) count s
    match s.judge (fld b 8 8) count with
    | none => raise 985 { s with ing := { s.ing with noProgramme := satInc 32 s.ing.noProgramme } }
    | some (i, p) =>
      if !p.localPaths.contains path then
        ingViolation h 983 { s with ing := { s.ing with unknownPath := satInc 32 s.ing.unknownPath } }
      else
        let s := touchPath path s
        if count = 0 then ingAdd path .keepAlives 1 s
        else if fld b 3 1 ≠ p.format ∨ !formatDefined (fld b 3 1) then ingViolation h 982 (ingAdd path .mismatch 1 s)
        else if !packetShapeOk p.format b then ingMalformed h s
        else placePacket path i p oldest b s

/-! ### Frames on a half-port (04 R77, R97, R447) -/

/-- The bytes that a half-port's receive buffer holds. -/
def HalfPort.held (p : HalfPort) : Nat := p.buffer.foldl (fun n f => n + f.length) 0

/-- The size of a receive buffer (04 R447). -/
def rxBufferSize : Nat := 256 * 1024

/-- A frame of the FCS class: more than ETH_FCS_RETRAIN of them within 1 ms force a link loss (04 R97, 03 R60). -/
def fcsClass (h : Nat) (s : State) : State :=
  let times := s.cycle :: (s.hp h).fcsTimes.filter fun t => decide (s.cycle < t + 10 ^ 6)
  let limit := s.eff 0x0307
  if limit ≠ 0 ∧ limit < times.length then linkLoss h [] (s.onHp h fun p => { p with fcsTimes := [] })
  else s.onHp h fun p => { p with fcsTimes := times }

/-- A frame dropped on a half-port. -/
def dropFrame (h : Nat) (c : RxClass) (s : State) : State :=
  let s := countRx h c s
  match c with
  | .fcs | .runt | .oversize => fcsClass h s
  | _ => s

/-- A frame received on half-port `h`: one without room is dropped whole; the others pass Table 4.2 (04 R77, R447). A byte
takes 80 ps at 100 Gbit/s, so a PTP message's first bit passed that many before (02 R27). -/
def ethFrameIn (h : Nat) (f : Bytes) (s : State) : State :=
  if rxBufferSize < (s.hp h).held + f.length then dropFrame h .overflow s
  else match rxFate s h f with
    | .drop c => dropFrame h c s
    | .ingest pl =>
      s.onHp h fun p => { p with buffer := p.buffer ++ [{ length := f.length, oldest := s.orb.oldest, payload := pl }] }
    | .command o b => frontEnd o b s
    | .ptp layer2 m => ptpMessage h (80 * f.length) layer2 m s
    | .arp _ _ _ _ | .echo _ _ _ _ | .icmpDrop => s

/-- ETH_FRAME_RECEIVE: after `dt` core cycles a frame, destination address to FCS, has arrived on half-port `h`. -/
def execEthFrameReceive (h dt : Nat) (frame : Bytes) (s : State) : Host.Outcome State Fault Refusal :=
  let s := s.advance dt
  .next (if s.ctlLive && s.ethIn h then ethFrameIn h frame s else s)

/-- The lowest half-port whose near-end loopback holds a frame (03 R67). -/
def State.loopedPort (s : State) : Option Nat :=
  (List.range 128).find? fun h => (s.hp h).nearLoop && !(s.hp h).looped.isEmpty

/-- The link layer of a half-port in a near-end loopback receives the oldest frame of its own (03 R67). -/
def takeLooped (h : Nat) (s : State) : State :=
  match (s.hp h).looped with
  | [] => s
  | f :: rest =>
    let s := s.onHp h fun p => { p with looped := rest }
    if s.ctlLive && s.ethUp h then ethFrameIn h f s else s

/-- The next half-port that the shared drain serves, ascending from the one after the last (04 R447). -/
def nextDrain (s : State) : Option Nat :=
  ((List.range 128).map fun i => (s.ing.drainLast + 1 + i) % 128).find? fun h => !(s.hp h).buffer.isEmpty

/-- The shared drain takes one frame. -/
def drainOne (s : State) : State :=
  match nextDrain s with
  | none => s
  | some h => match (s.hp h).buffer with
    | [] => s
    | f :: rest =>
      ingestPacket h f.oldest f.payload
        { s.onHp h (fun p => { p with buffer := rest }) with ing := { s.ing with drainLast := h } }

/-- INGEST_FRAME_DRAIN: after `dt` core cycles the shared ingest drain takes a frame. -/
def execIngestFrameDrain (dt : Nat) (s : State) : Host.Outcome State Fault Refusal :=
  let s := s.advance dt
  .next (if s.coreLive then drainOne s else s)

/-- PATH_SILENT: after `dt` core cycles the last-seen time of a path is ING_SILENT_MS behind the deadline base (04 R86). A path
that has sent nothing yet has no last-seen time and does not become SILENT (DESIGN CHOICE, log entry 129). -/
def execPathSilent (path dt : Nat) (s : State) : Host.Outcome State Fault Refusal :=
  let s := s.advance dt
  let b := s.tb (s.eff 0x0544)
  let q := tget s.ing.paths path {}
  let due := match q.lastSeen with
    | some t => b.hasTime && s.eff 0x0306 != 0 && !q.silent && decide (t + s.eff 0x0306 * 10 ^ 6 ≤ b.ns)
    | none => false
  .next (if s.coreLive && due then raise 984 (s.onIng path fun q => { q with silent := true }) else s)

/-! ### Frames on the Management Port (04 R79, R97; 03 R72, R446) -/

/-- An IPv4 packet of protocol ICMP (04 R78, R79). -/
def icmpPacket (ttl srcIp dstIp : Nat) (data : Bytes) : Bytes :=
  let a := [0x45, 0] ++ be 2 (20 + data.length) ++ [0, 0, 0x40, 0] ++ be 1 ttl ++ [1]
  let b := be 4 srcIp ++ be 4 dstIp
  a ++ be 2 (inetSum (a ++ [0, 0] ++ b)) ++ b ++ data

/-- The echo reply to an echo request of equal length and payload (04 R79). -/
def echoReply (icmp : Bytes) : Bytes :=
  let rest := icmp.drop 4
  [0, 0] ++ be 2 (inetSum ([0, 0, 0, 0] ++ rest)) ++ rest

/-- A violation on the Management Port (04 Table 4.12). -/
def mpViolation (c : MpCtr) (s : State) : State := raise 987 (bumpMp c s)

/-- A frame received on the Management Port. -/
def mpFrameIn (f : Bytes) (s : State) : State :=
  let s := bumpMp .received s
  match mpFate s f with
  | .drop c => match c with
    | .fcs => mpViolation .fcs s
    | .runt => mpViolation .runt s
    | .oversize => mpViolation .oversize s
    | .layer2 => mpViolation .layer2 s
    | .pause => bumpMp .layer2 s
    | .layer3 => mpViolation .layer3 s
    | .overflow => mpViolation .overflow s
    | .notForDevice => bumpMp .notForDevice s
  | .command o b => frontEnd o b s
  | .arp src mac ip tag =>
    bumpMp .arpAnswered (sendFrame 255 (ethFrame src s.macBase tag 0x0806
      (arpPacket 2 s.macBase (s.eff 0x0310) mac ip)) s)
  | .echo mac ip tag icmp =>
    bumpMp .echoAnswered (sendFrame 255 (ethFrame mac s.macBase tag 0x0800
      (icmpPacket (s.eff 0x0305) (s.eff 0x0310) ip (echoReply icmp))) s)
  | .icmpDrop => mpViolation .icmpDropped s
  | .ingest _ | .ptp _ _ => s

/-- MP_FRAME_RECEIVE: a frame arrives on the Management Port; one that arrives while its link is down is lost and counted
(03 R72). -/
def execMpFrameReceive (frame : Bytes) (s : State) : Host.Outcome State Fault Refusal :=
  .next (
    if s.boot.porstLow then s
    else match s.mp.state with
      | .up => mpFrameIn frame s
      | .training => bumpMp .rateLost s
      | _ => s)

/-- MP_LINK_CHANGE: the Management Port's link goes up, or goes down, with or without its receive signal (03 R72, R446). -/
def execMpLinkChange (up signal : Bool) (s : State) : Host.Outcome State Fault Refusal :=
  let down := fun (s : State) => if !signal && s.mp.state == .up then { s with mp := { s.mp with cause := setBit s.mp.cause 8 } } else s
  .next (if s.boot.porstLow then s else mpLinkChange up (if up then s else down s))

end Sys2Proof.Machine
end

