-- ==== Sys2Proof/Machine/Links.lean ====
section
/-! DEFINITION. The events of half-ports and lanes (03_lanes_and_ports.md R53, R57 to R66), and Midway links: training,
acknowledgement, credits, replay, received frames and electrical idle (06_midway_exchange.md R131 to R155). -/

namespace Sys2Proof.Machine

/-! ### Half-ports and lanes -/

/-- Whether half-port `h` of the variant has power and clock. -/
def State.portLive (s : State) (h : Nat) : Bool := s.ctlLive && decide (h < halfPortsOf s.fuses.variant)

/-- HP_RETRY_TIMER: HP_RETRY_MS have passed since a failed attempt or a link loss of half-port `h` (03 R59). -/
def execHpRetryTimer (h : Nat) (s : State) : Host.Outcome State Fault Refusal :=
  .next (if s.portLive h && (s.hp h).state == .training && (s.hp h).retryWait then startAttempt h s else s)

/-- HP_TRAINING_TIMEOUT: the attempt of half-port `h` reaches its time limit (03 R58, R59). -/
def execHpTrainingTimeout (h : Nat) (s : State) : Host.Outcome State Fault Refusal :=
  .next (if s.portLive h then trainFail h s else s)

/-- A lane without signal; where the half-port has just lost its link, the loss is also counted on this lane (03 R69; log
entry 45). -/
def laneDark (n : Nat) (s : State) : State :=
  let p := s.hp (n / 4)
  let also := p.state == .training && p.retryWait
  s.onLane n fun l =>
    { l with signal := false, cdrLock := false, blockLock := false
             losses := if also && l.signal then satInc 32 l.losses else l.losses }

/-- LANE_SIGNAL_LOSS: no signal for 1 us on lane `n` of the device; an expected squelch is no loss, nor is one at the balls that a
near-end loopback ignores (03 R60, R67; 06 R149). -/
def execLaneSignalLoss (n : Nat) (s : State) : Host.Outcome State Fault Refusal :=
  let h := n / 4
  .next (
    if !s.portLive h || (s.hp h).rxIdle || (s.hp h).state == .off || (s.hp h).state == .idle || (s.hp h).nearLoop then s
    else
      let s := laneDark n s
      linkLoss h [n % 4] (setHpCause h 8 s))

/-- LANE_LOCK_LOSS: half-port `h` loses CDR or block lock on a lane, or, with no lane, its alignment or FEC lock; `pll`: because
its lane PLL has unlocked, which is cause PLL_UNLOCK, in electrical idle too (03 R51, R60, R69, Table 3.7). -/
def execLaneLockLoss (h : Nat) (lane : Option Nat) (s : State) (pll : Bool := false) : Host.Outcome State Fault Refusal :=
  .next (
    if !s.portLive h || (s.hp h).state == .off then s
    else
      let s := if pll then setHpCause h 9 s else s
      if (s.hp h).rxIdle then s
      else match lane with
      | some k => linkLoss h [k % 4] (s.onLane (4 * h + k % 4) fun l => { l with cdrLock := false, blockLock := false })
      | none => linkLoss h [] s)

/-- EYE_FAIL: the figure of lane `n` has stayed below LANE_EYE_FAIL for LANE_EYE_FAIL_MS (03 R62). -/
def execEyeFail (n : Nat) (s : State) : Host.Outcome State Fault Refusal :=
  .next (if s.portLive (n / 4) then eyeFail n s else s)

/-- EYE_FIGURE_REFRESH: a background measurement of lane `n`, or for 512 of the Management Port's lane, ends with H and V, and may
have tried one equaliser step: its CTLE, DFE taps, H and V. It also brings the errors that the lane has shown since the last
one: sync-header errors, PRBS errors and codewords corrected (03 R61, R62, R68, R69, R71; log entry 118). -/
def execEyeFigureRefresh (n h v : Nat) (trial : Option (Nat × List Int × Nat × Nat)) (s : State) (sync : Nat := 0)
    (prbs : Nat := 0) (corrected : Nat := 0) :
    Host.Outcome State Fault Refusal :=
  .next (
    if n = 512 then (if s.boot.porstLow then s else refreshMpEye h v trial s)
    else if s.portLive (n / 4) then refreshEye n h v trial (lineErrors n sync prbs corrected s) else s)

/-- LANE_EYE_SCAN_COMPLETE: the scan of lane `n` ends, with the data sampling phase and threshold and the error counts
(03 R63). -/
def execLaneEyeScanComplete (n phase volt : Nat) (counts : List Nat) (s : State) : Host.Outcome State Fault Refusal :=
  .next (if s.portLive (n / 4) then scanComplete n phase volt counts s else s)

/-- UNCORRECTABLE_CODEWORD on half-port `h` (03 R70). -/
def execUncorrectableCodeword (h : Nat) (s : State) : Host.Outcome State Fault Refusal :=
  .next (
    if s.portLive h && cfgFec (s.hp h).trained && (s.hp h).inService then
      setHpCause h 7 (s.onHp h fun p => { p with fecUncorrected := satInc 64 p.fecUncorrected })
    else s)

/-- LANE_REFERENCE_LOST: reference `k` (03 R53). -/
def execLaneReferenceLost (k : Nat) (s : State) : Host.Outcome State Fault Refusal :=
  .next (if s.boot.porstLow then s else referenceLost k s)

/-- LANE_REFERENCE_RETURN: reference `k` (03 R53). -/
def execLaneReferenceReturn (k : Nat) (s : State) : Host.Outcome State Fault Refusal :=
  .next (if s.boot.porstLow then s else referenceReturn k s)

/-! ### Midway: blocks and violations -/

/-- Whether a body carries a good CRC-8. -/
def bodyOk (b : Bytes) : Bool := b.length == 7 && crc8 (b.take 6) == fld b 6 1

/-- The half-ports of the link kept on `b`. -/
def State.linkPorts (s : State) (b : Nat) : List Nat := s.hpGroup b

/-- Frame buffers of each direction of a link (06 R140). -/
def State.linkBuffers (s : State) (b : Nat) : Nat := if s.fullPort b then 128 else 64

/-- Whether the link kept on `b` is UP. -/
def State.mwUp (s : State) (b : Nat) : Bool := s.portLive b && (s.hp b).midway && (s.hp b).state == .up

/-- `k` violations of a counted class on a link: counted, the cause set; too many within 1 ms are a link loss (06 R151,
R152). The cause is set on the half-port that keeps the link (DESIGN CHOICE, log entry 131). -/
def mwViolation (b : Nat) (c : MwCtr) (cause k : Nat) (s : State) : State :=
  let s := setHpCause b cause (mwAdd b c k s)
  let times := List.replicate k s.cycle ++ (s.hp b).mw.violationTimes.filter fun t => decide (s.cycle < t + 10 ^ 6)
  let limit := s.eff 0x0404
  if limit ≠ 0 ∧ limit < times.length then linkLoss b [] (s.onMw b fun m => { m with violationTimes := [] })
  else s.onMw b fun m => { m with violationTimes := times }

/-- A control error (06 R133, Table 6.4). -/
def mwControl (b : Nat) (s : State) : State := mwViolation b .control 14 1 s

/-- MW_CONTROL_ERROR: a control block with a bad CRC-8 or a reserved type arrives on half-port `h`. -/
def execMwControlError (h : Nat) (s : State) : Host.Outcome State Fault Refusal :=
  let b := s.linkOf h
  .next (if s.mwUp b then mwControl b s else if s.portLive b && (s.hp b).midway then setHpCause b 14 (mwBump b .control s) else s)

/-! ### Midway: training (06 R137 to R139) -/

/-- Whether the link's attempt is under way. -/
def State.mwTraining (s : State) (b : Nat) : Bool :=
  s.portLive b && (s.hp b).midway && (s.hp b).state == .training && !(s.hp b).retryWait

/-- Whether every lane of the link has received a LANE, and no two the same: the lanes can be put in order (06 R137). -/
def lanesOrdered (seen : Tab Nat) (lanes : Nat) : Bool :=
  ((List.range lanes).all fun k => (tfind seen k).isSome) && allDiffer ((List.range lanes).map fun k => tget seen k 0)

/-- A TRAIN_A block on lane `k` of the link: identity, lane order and SEEN, which the lanes then send (06 R137). -/
def trainA (b k : Nat) (body : Bytes) (s : State) : State :=
  let v := fld body 0 7
  let m := (s.hp b).mw
  let full := cfgMode (s.hp b).trained == 5
  let lane := bits v 55 53
  let device := bits v 52 48
  if bits v 47 32 ≠ m.ownMesh ∨ bit v 26 ≠ full ∨ device = m.ownDevice then
    let s := (s.linkPorts b).foldl (fun s u => setHpCause u 13 s) s
    trainFail b s
  else if !full && 4 ≤ lane then s
  else
    let seen := tput m.lanesSeen k lane
    let ready := m.seenSent || lanesOrdered seen (if full then 8 else 4)
    let s := s.onMw b fun m =>
      { m with lanesSeen := seen, partner := some device, partnerReset := m.partnerReset || bit v 25
               seenByPartner := m.seenByPartner || bit v 24, seenSent := ready }
    if ready && !m.seenSent then (s.linkPorts b).foldl (fun s u => trainBlocks u s) s else s

/-- TRAIN_A: a TRAIN_A block, seven body bytes, arrives on lane `lane` of half-port `h`. -/
def execTrainA (h : Nat) (body : Bytes) (s : State) (lane : Nat := 0) : Host.Outcome State Fault Refusal :=
  let b := s.linkOf h
  .next (
    if s.mwTraining b then (if bodyOk body then trainA b (4 * (h - b) + lane % 4) body s else setHpCause b 14 (mwBump b .control s)) else s)

/-- Both sequence states start again at 0; the frames held are lost (06 R139). -/
def mwReset (b : Nat) (s : State) : State :=
  let s := mwAdd b .lost (s.hp b).mw.replay.length s
  let s := s.onMw b fun m =>
    { m with nextSeq := 0, replay := [], ackSeen := 0xFFFF, creditLimit := s.linkBuffers b, nakActed := none
             resendFrom := none, resends := 0, expected := 0, nakOut := false, ackSent := 0xFFFF, granted := s.linkBuffers b
             nakSent := false, rxHeld := [] }
  setHpCause b 15 s

/-- Whether the oldest frame to be replayed lies four or more orbits behind the oldest open at ingest (06 R139). -/
def replayStale (s : State) (m : MwLink) : Bool :=
  match m.replay, s.orb.oldest with
  | f :: _, some o => decide (f.orbit + 4 ≤ o)
  | _, _ => false

/-- Drops the frames of the replay buffer that an acknowledgement of everything before `next` covers. -/
def ackTo (next : Nat) (l : List MwFrame) : List MwFrame :=
  l.dropWhile fun f => decide ((next + 2 ^ 16 - 1 - f.seq) % 2 ^ 16 < 2 ^ 15)

/-- A TRAIN_B block decides between replay from the partner's NEXT_SEQ and a reset. The partner's next SEQ is not sent: this
side's NEXT_SEQ lies outside the partner's range where it is further past OLDEST_SEQ than a replay buffer reaches (06 R139, R140;
log entry 131). -/
def trainB (b : Nat) (body : Bytes) (s : State) : State :=
  let next := fld body 0 2
  let m := (s.hp b).mw
  let oldest := m.oldestSeq
  let inRange := decide ((next + 2 ^ 16 - oldest) % 2 ^ 16 ≤ (m.nextSeq + 2 ^ 16 - oldest) % 2 ^ 16) &&
    decide ((m.expected + 2 ^ 16 - fld body 2 2) % 2 ^ 16 ≤ s.linkBuffers b)
  if m.partnerReset || !m.trainedOnce || !inRange || replayStale s m then mwReset b s
  else
    let rest := ackTo next m.replay
    s.onMw b fun m =>
      { m with replay := rest, ackSeen := (next + 2 ^ 16 - 1) % 2 ^ 16, nakActed := none, resends := 0
               resendFrom := if rest.isEmpty then none else some next }

/-- TRAIN_B: a TRAIN_B block, seven body bytes, arrives on half-port `h`. -/
def execTrainB (h : Nat) (body : Bytes) (s : State) : Host.Outcome State Fault Refusal :=
  let b := s.linkOf h
  .next (
    if s.mwTraining b then (if bodyOk body then trainB b body s else setHpCause b 14 (mwBump b .control s)) else s)

/-- A trained link against the peer that the programme expects (06 R138, R148). -/
def mwReached (b rtt : Nat) (s : State) : State :=
  holdPeer s.meshProgramme b (s.onMw b fun m =>
    { m with trainedOnce := true, peerLost := false, roundTrip := rtt % 2 ^ 32, partnerReset := false
             lanesSeen := [], blocks := 0 })

/-- The half-ports of a group reach UP, lane results in the group's lane order; a full port only with both halves (03 R57). -/
def reachUp (h : Nat) (results : List LaneResult) (s : State) : State :=
  let g := s.hpGroup h
  if g.all fun u => (s.hp u).state == .training && !(s.hp u).retryWait then
    (g.zip (List.range g.length)).foldl (fun s e => reachUpOne e.1 (results.drop (4 * e.2)) s) s
  else s

/-- Once SEEN has gone both ways each lane sends 16 more block pairs (06 R137). -/
def lastPairs (b : Nat) (s : State) : State :=
  (List.range 16).foldl (fun s _ => (s.linkPorts b).foldl (fun s u => trainBlocks u s) s) s

/-- HP_TRAINING_COMPLETE: every lane of half-port `h` and the line protocol report link; a Midway link has exchanged SEEN,
and its round trip was measured (03 R57; 06 R137, R140). -/
def execHpTrainingComplete (h rtt : Nat) (results : List LaneResult) (s : State) : Host.Outcome State Fault Refusal :=
  let b := s.linkOf h
  let m := (s.hp b).mw
  .next (
    if !s.portLive h || (s.hp h).state != .training || (s.hp h).retryWait then s
    else if (s.hp h).midway then
      let s := if m.seenSent && m.seenByPartner then reachUp h results (lastPairs b s) else s
      if (s.hp h).state == .up then mwReached b rtt s else s
    else reachUp h results s)

/-! ### Midway: acknowledgement, credits and replay (06 R134, R140 to R142) -/

/-- A received LINK block: acknowledgement, credit, NAK and IDLE_NEXT. -/
def linkBlock (b : Nat) (body : Bytes) (s : State) : State :=
  let ack := fld body 0 2
  let flags := fld body 4 1
  let m := (s.hp b).mw
  let rest := ackTo ((ack + 1) % 2 ^ 16) m.replay
  let moved := decide (rest.length < m.replay.length)
  let nak := bit flags 0
  let act := nak && m.nakActed != some ack
  let s := s.onMw b fun m =>
    { m with replay := rest, ackSeen := ack, creditLimit := fld body 2 2, resends := if moved then 0 else m.resends
             nakActed := if act then some ack else m.nakActed
             resendFrom := if rest.isEmpty then none else if act then some ((ack + 1) % 2 ^ 16)
               else match m.resendFrom with
                 | some q => if rest.any fun f => f.seq == q then some q else none
                 | none => none }
  let s := if act then mwBump b .resends s else s
  let s := if nak then mwBump b .naksReceived s else s
  (s.linkPorts b).foldl (fun s u => s.onHp u fun p => { p with rxIdle := bit flags 1 }) s

/-- MW_LINK_BLOCK: a LINK block, seven body bytes, arrives on half-port `h`. -/
def execMwLinkBlock (h : Nat) (body : Bytes) (s : State) : Host.Outcome State Fault Refusal :=
  let b := s.linkOf h
  .next (if s.mwUp b then (if bodyOk body then linkBlock b body s else mwControl b s) else s)

/-- The receive buffers that stage B has not freed: the last sample that the frame placed still waits (06 R140; log entry 32). -/
def MwLink.held (m : MwLink) (s : State) : List RxBuffer :=
  m.rxHeld.filter fun r => thas (s.fine r.path r.slice).samples r.last

/-- CREDIT_LIMIT as it stands: ACK_SEQ + 1 and the free receive buffers (06 R140). -/
def creditNow (s : State) (b : Nat) : Nat :=
  ((s.hp b).mw.expected + (s.linkBuffers b - ((s.hp b).mw.held s).length)) % 2 ^ 16

/-- ACK_SEQ as it stands. -/
def MwLink.ack (m : MwLink) : Nat := (m.expected + 2 ^ 16 - 1) % 2 ^ 16

/-- Puts one block on the link. -/
def sendBlock (b : Nat) (x : Bytes) (s : State) : State :=
  s.onMw b (fun m => { m with blocks := (m.blocks + 1) % 32 }) |> fun s => { s with sent := (b, x) :: s.sent }

/-- Sends a LINK block. -/
def sendLink (b : Nat) (idleNext : Bool) (s : State) : State :=
  let m := (s.hp b).mw
  let limit := creditNow s b
  let body := blockBody (m.ack * 2 ^ 32 + limit * 2 ^ 16 + (b2n m.nakOut + 2 * b2n idleNext) * 2 ^ 8)
  let s := if m.nakOut then mwBump b .naksSent s else s
  sendBlock b (controlBlock 0xC3 body)
    (s.onMw b fun m => { m with ackSent := m.ack, granted := limit, nakSent := m.nakOut })

/-- Sends other blocks, with a LINK block in every 32nd place, counted from the first block after training (06 R134). -/
def sendBlocks (b : Nat) (l : List Bytes) (s : State) : State :=
  l.foldl (fun s x => sendBlock b x (if (s.hp b).mw.blocks = 31 then sendLink b false s else s)) s

/-- MW_LINK_BLOCK_SEND: half-port `h` has sent `idles` IDLE blocks since it last sent anything else, and sends a LINK block, at the
fixed cadence or in place of an IDLE block (06 R134). -/
def execMwLinkBlockSend (h : Nat) (s : State) (idles : Nat := 0) : Host.Outcome State Fault Refusal :=
  let b := s.linkOf h
  .next (if s.mwUp b && !(s.hp b).txIdle then sendLink b false (sendBlocks b (List.replicate idles idleBlock) s) else s)

/-- Discards the staged frames four or more orbits behind the oldest open at ingest (06 R143). -/
def dropStale (b : Nat) (s : State) : State :=
  match s.orb.oldest with
  | none => s
  | some o =>
    let stale := (s.hp b).mw.staged.takeWhile fun f => decide (f.orbit + 4 ≤ o)
    let s := s.onMw b fun m => { m with staged := m.staged.drop stale.length }
    stale.foldl (fun s f => discardOut b f s) s

/-- Puts a frame on the link. -/
def emitFrame (b : Nat) (bytes : Bytes) (s : State) : State := mwBump b .sent (sendBlocks b (frameBlocks bytes) s)

/-- A frame to be resent whose orbit lies four or more behind the oldest open at ingest: its data are discarded and counted as
unsent once, and an empty DATA frame takes its SEQ, so that the frames behind it can follow. DESIGN CHOICE (log entry 131): the
spec discards the frame and does not say what becomes of its SEQ (06 R136, R143). -/
def emptyStale (b : Nat) (f : MwFrame) (s : State) : State × MwFrame :=
  let stale : Bool := match s.orb.oldest with | some o => decide (f.orbit + 4 ≤ o) | none => false
  if stale && !f.emptied then
    let out : MwOut := { close := false, orbit := f.orbit, offset := 0, payload := [] }
    let g := { f with bytes := mwFrameBytes out f.seq, emptied := true }
    (discardOut b { out with close := f.close } (s.onMw b fun m =>
      { m with replay := m.replay.map fun x => if x.seq = f.seq then g else x }), g)
  else (s, f)

/-- Sends the next frame: one to be resent, else the oldest staged one whose credit and replay room are there (06 R140,
R141). A CLOSE behind data that were discarded goes with them (06 R144). -/
def sendNext (b : Nat) (s : State) : State :=
  let m := (s.hp b).mw
  match m.resendFrom with
  | some q => match m.replay.find? fun f => f.seq == q with
    | some f =>
      let next := (q + 1) % 2 ^ 16
      let (s, f) := emptyStale b f s
      emitFrame b f.bytes (s.onMw b fun m =>
        { m with resendFrom := if m.replay.any (fun g => g.seq == next) then some next else none })
    | none => s.onMw b fun m => { m with resendFrom := none }
  | none =>
    let s := dropStale b s
    let m := (s.hp b).mw
    match m.staged with
    | [] => s
    | f :: rest =>
      let room := (m.creditLimit + 2 ^ 16 - m.nextSeq) % 2 ^ 16
      if f.close && m.discarded.contains f.orbit then discardOut b f (s.onMw b fun m => { m with staged := rest })
      else if 1 ≤ room ∧ room ≤ 32767 ∧ m.replay.length < s.linkBuffers b then
        let bytes := mwFrameBytes f m.nextSeq
        emitFrame b bytes (s.onMw b fun m =>
          { m with staged := rest, nextSeq := (m.nextSeq + 1) % 2 ^ 16
                   replay := m.replay ++ [{ seq := m.nextSeq, orbit := f.orbit, bytes := bytes, close := f.close }] })
      else s

/-- MW_FRAME_SEND: half-port `h` sends a frame, if it may. -/
def execMwFrameSend (h : Nat) (s : State) : Host.Outcome State Fault Refusal :=
  let b := s.linkOf h
  .next (if s.mwUp b && !(s.hp b).txIdle && !(s.hp b).mw.wrongPeer then sendNext b s else s)

/-- MW_REPLAY_TIMEOUT: frames are outstanding and ACK_SEQ has not advanced for MW_REPLAY_TIMEOUT_US (06 R142). -/
def execMwReplayTimeout (h : Nat) (s : State) : Host.Outcome State Fault Refusal :=
  let b := s.linkOf h
  let m := (s.hp b).mw
  .next (
    if s.mwUp b then match m.replay with
      | [] => s
      | f :: _ =>
        if s.eff 0x0403 ≤ m.resends then linkLoss b [] (setHpCause b 12 (s.onMw b fun m => { m with resends := 0 }))
        else mwBump b .resends (s.onMw b fun m => { m with resends := m.resends + 1, resendFrom := some f.seq })
    else s)

/-- EV_MW_PEER_LOST: the link of half-port `h` has not been UP for MW_PEER_LOST_MS (06 R148). -/
def execEvMwPeerLost (h : Nat) (s : State) : Host.Outcome State Fault Refusal :=
  let b := s.linkOf h
  .next (
    if s.portLive b && (s.hp b).midway && (s.hp b).state != .up && !(s.hp b).mw.peerLost then
      raise 994 (s.onMw b fun m => { m with peerLost := true })
    else s)

/-! ### Midway: received frames (06 R131, R135, R136, R140 to R146) -/

/-- The bytes of one segment of an orbit (06 R130). -/
def Programme.segmentBytes (p : Programme) : Nat := 3 * p.n * p.c

/-- A slice sample as three bytes carry it, and whether its code is broken (06 R131). -/
def decodeSample (b : Bytes) : Option (Int × Int) × Bool :=
  let re := toSigned 12 (fld b 0 3 / 4096)
  let im := toSigned 12 (fld b 0 3 % 4096)
  if re = -2048 ∨ im = -2048 then (none, !(re == -2048 && im == -2048)) else (some (re, im), false)

/-- Places whole samples from sample `m` on; counts the broken codes. -/
def placeBytes (fuel path slice m : Nat) (bs : Bytes) (s : State) : State × Nat :=
  match fuel with
  | 0 => (s, 0)
  | fuel + 1 =>
    if bs.length < 3 then (s, 0)
    else
      let (v, broken) := decodeSample (bs.take 3)
      let (s, k) := placeBytes fuel path slice (m + 1) (bs.drop 3) (placeSlice path slice m v s)
      (s, k + b2n broken)

/-- Places a payload that begins at byte `off` of a segment of orbit `n`; a sample that straddles two frames is completed
if the frames adjoin (06 R132, R143). Also gives the broken codes. -/
def placePayload (p : Programme) (path slice n off : Nat) (pay : Bytes) (s : State) : State × Nat :=
  let at' := n * p.segmentBytes + off
  let (start, bs) := match (s.fine path slice).tail with
    | some (pos, t) => if pos = at' then (off - t.length, t ++ pay) else (off, pay)
    | none => (off, pay)
  let skip := (3 - start % 3) % 3
  let bs := bs.drop skip
  let first := (start + skip) / 3
  let left := bs.length % 3
  let (s, k) := placeBytes (bs.length + 1) path slice (n * p.n * p.c + first) bs s
  (s.onFine path slice fun f =>
    { f with tail := if left = 0 ∨ bs.length < left then none else some (at' + pay.length, bs.drop (bs.length - left)) }, k)

/-- A malformed frame, acknowledged and discarded. -/
def mwMalformed (b k : Nat) (s : State) : State := if k = 0 then s else mwViolation b .malformed 14 k s

/-- The orbit of a DATA frame: the one in the range from `o - 8` to `o + 7` that ends in ORBIT_LO, as a distance from
`o - 8`. -/
def orbitDistance (o lo : Nat) : Nat := (lo + 16 - (o + 8) % 16) % 16

/-- The orbit and the bytes of a DATA frame of the link `l` (06 R143); one of an orbit that no programme owns counts as early (DESIGN
CHOICE, log entry 131). -/
def takeData (b : Nat) (l : ProgLink) (lo off : Nat) (pay : Bytes) (s : State) : State :=
  match s.ct.frame with
  | none => s
  | some o =>
    let d := orbitDistance o lo
    if d < 8 then raise 997 (mwBump b .late s)
    else if 12 ≤ d then mwBump b .early s
    else
      let n := o + d - 8
      match s.progAt n with
      | none => mwBump b .early s
      | some p =>
        let l := (p.links.find? fun x => s.linkOf x.hp == b).getD l
        let at' := 4 * off
        let inside := at' % p.segmentBytes
        match l.rx[at' / p.segmentBytes]? with
        | none => mwMalformed b 1 s
        | some (path, slice) =>
          let key := (n * 2048 + path) * 256 + slice
          if p.segmentBytes < inside + pay.length ∨ inside < tget (s.hp b).mw.segNext key 0 then mwMalformed b 1 s
          else
            let s := s.onMw b fun m => { m with segNext := tput m.segNext key (inside + pay.length) }
            let (s, k) := placePayload p path slice n inside pay s
            let held : RxBuffer := { path, slice, last := n * p.n * p.c + (inside + pay.length) / 3 - 1 }
            mwMalformed b k (s.onMw b fun m => { m with rxHeld := m.held s ++ [held] })

/-- A CLOSE frame of orbit `n` (06 R144, R145). -/
def takeClose (b n flags : Nat) (s : State) : State :=
  match s.ct.frame with
  | none => s
  | some o =>
    if n < o then raise 997 (mwBump b .late s)
    else framesByMarker { s with ct := { s.ct with closes := tmod s.ct.closes n [] fun t => tput t b (bit flags 0) } }

/-- The link record of the programme in effect for a half-port; with none the link is unlisted (06 R138). -/
def State.linkRecord (s : State) (b : Nat) : Option ProgLink :=
  match s.inEffect with
  | some p => p.links.find? fun l => s.linkOf l.hp == b
  | none => none

/-- A frame that came in order with a good CRC and credit: acknowledged, then taken by its kind; from a wrong peer it is discarded
(06 R138). -/
def takeFrame (b : Nat) (f : Bytes) (s : State) : State :=
  let head := fld f 0 8
  let kind := bits head 63 62
  let len := bits head 45 36
  let pay := slice f 8 (4 * len)
  let s := mwBump b .received (s.onMw b fun m =>
    { m with expected := (m.expected + 1) % 2 ^ 16, nakOut := false })
  match s.linkRecord b with
    | none => mwBump b .unlisted s
    | some l =>
      if (s.hp b).mw.wrongPeer then s
      else if kind = 0 ∨ kind = 3 ∨ 512 < len ∨ (kind = 2 ∧ len ≠ 4) then mwMalformed b 1 s
      else if kind = 2 then takeClose b (fld pay 0 8) (fld pay 8 4) s
      else if len = 0 then mwBump b .empty s
      else takeData b l (bits head 35 32) (bits head 31 0) pay s

/-- A frame that is not taken: discarded, and NAK goes out (06 R141). -/
def refuseFrame (b : Nat) (c : MwCtr) (cause : Nat) (s : State) : State :=
  mwViolation b c cause 1 (s.onMw b fun m => { m with nakOut := true })

/-- A frame received: header, payload, CRC-32C and padding (06 R135, R141). -/
def mwReceive (b : Nat) (f : Bytes) (s : State) : State :=
  let m := (s.hp b).mw
  let len := bits (fld f 0 8) 45 36
  let seq := bits (fld f 0 8) 61 46
  let room := (m.granted + 2 ^ 16 - seq) % 2 ^ 16
  if f.length < 12 + 4 * len ∨ fld f (8 + 4 * len) 4 ≠ crc32c (f.take (8 + 4 * len)) then refuseFrame b .crc 11 s
  else if seq ≠ m.expected then refuseFrame b .sequence 11 s
  else if room = 0 ∨ 32767 < room then refuseFrame b .credit 14 s
  else takeFrame b f s

/-- The data blocks of a frame arrive on half-port `h`, after a START block or outside any frame. -/
def mwBlocksIn (h : Nat) (started : Bool) (f : Bytes) (s : State) : State :=
  let b := s.linkOf h
  if s.mwUp b then (if started then mwReceive b f s else mwMalformed b 1 s) else s

/-- MW_DATA_FRAME: a DATA frame arrives on half-port `h`, or data blocks outside a frame (06 Table 6.4). -/
def execMwDataFrame (h : Nat) (started : Bool) (frame : Bytes) (s : State) : Host.Outcome State Fault Refusal :=
  .next (mwBlocksIn h started frame s)

/-- MW_CLOSE_FRAME: a CLOSE frame arrives on half-port `h`. -/
def execMwCloseFrame (h : Nat) (frame : Bytes) (s : State) : Host.Outcome State Fault Refusal :=
  .next (mwBlocksIn h true frame s)

/-! ### Electrical idle (03 R64 to R66; 06 R149) -/

/-- Counts an idle exit on every lane of the link and ends the idle of a direction. -/
def idleExit (b : Nat) (tx : Bool) (s : State) : State :=
  (s.linkPorts b).foldl (fun s u => s.onHp u fun p =>
    let q := p.onLanes fun l => { l with idleExits := satInc 32 l.idleExits }
    if tx then { q with txIdle := false } else { q with rxIdle := false }) s

/-- Whether a link has nothing to send: no frame, no frame unacknowledged, no change in ACK_SEQ, CREDIT_LIMIT or NAK. -/
def mwQuiet (s : State) (b : Nat) : Bool :=
  let m := (s.hp b).mw
  m.staged.isEmpty && m.replay.isEmpty && m.ackSent == m.ack && m.granted == creditNow s b && m.nakOut == m.nakSent

/-- ELECTRICAL_IDLE_ENTER: the transmit direction of half-port `h` has been quiet for MW_IDLE_ENTER_US (06 R149). DESIGN CHOICE
(log entry 123): a half-port that only its link layer idles, one direction at a time, keeps the lane STATE UP. -/
def execElectricalIdleEnter (h : Nat) (s : State) : Host.Outcome State Fault Refusal :=
  let b := s.linkOf h
  .next (
    if s.mwUp b && !(s.hp b).txIdle && s.eff 0x0407 == 1 && mwQuiet s b then
      let s := mwBump b .idleEntries (sendLink b true s)
      (s.linkPorts b).foldl (fun s u => s.onHp u fun p => { p with txIdle := true, idleSince := s.cycle }) s
    else s)

/-- FAST_EXIT: after `dt` core cycles a direction of half-port `h` leaves idle; the transmit direction after a longer idle
than LANE_IDLE_HOLD_MS trains fully instead (03 R65, R66). -/
def execFastExit (h : Nat) (tx : Bool) (dt : Nat) (s : State) : Host.Outcome State Fault Refusal :=
  let s := s.advance dt
  let b := s.linkOf h
  let p := s.hp b
  .next (
    if !s.mwUp b || !(if tx then p.txIdle else p.rxIdle) then s
    else if tx && decide (p.idleSince + s.eff 0x0285 * 10 ^ 6 < s.cycle) then retrain b s
    else idleExit b tx s)

/-- IDLE_KEEPALIVE_EXIT: after `dt` core cycles LANE_IDLE_HOLD_MS / 2 of idle have passed, and the transmit direction of
half-port `h` exits to send one LINK block (06 R149). -/
def execIdleKeepaliveExit (h dt : Nat) (s : State) : Host.Outcome State Fault Refusal :=
  let s := s.advance dt
  let b := s.linkOf h
  .next (if s.mwUp b && (s.hp b).txIdle then sendLink b false (idleExit b true s) else s)

/-- IDLE_EXIT_FAIL: the receiver of half-port `h` accepts no block within 200 ns of the burst's end; the lanes on which the
failure is seen count it (03 R66, R69). A mode-6 half-port leaves its idle into TEST. -/
def execIdleExitFail (h : Nat) (lanes : List Nat) (s : State) : Host.Outcome State Fault Refusal :=
  .next (
    if s.portLive h && ((s.hp h).midway && ((s.hp h).rxIdle || (s.hp h).state == .up) || (s.hp h).state == .test) then
      let s := s.onHp h fun p =>
        { p with lanes := lanes.foldl (fun (t : Tab Lane) k => tmod t (k % 4) {} fun l => { l with idleFails := satInc 32 l.idleFails }) p.lanes }
      retrain h (setHpCause h 6 s)
    else s)

end Sys2Proof.Machine
end

