-- ==== Sys2Proof/Machine/Bus.lean ====
section
/-! DEFINITION. The control bus matrix: its address map, its targets word by word, transactions, timeouts, slices and
counters (15_bus_matrix.md R350 to R363; 14 R329, R335; 16 R379; 17 R398; 12 R297). -/

namespace Sys2Proof.Machine

/-! ### Words and strobes -/

/-- A word of which the spec states no layout: a free value (log entry 33). -/
def freeRead (s : State) : State × Nat := ({ s with free := s.free + 1 }, (Config.freeWord s.free).toNat)

/-- A word of which a write changes the bytes whose strobes are on; strobe `i` is that of byte offset `i`. -/
def mergeStrobes (old strobes v : Nat) : Nat :=
  ofBe ((List.range 4).map fun i => if bit strobes i then (be 4 v).getD i 0 else (be 4 old).getD i 0)

/-- The word at a byte address of a memory whose unlisted bytes read `d`. -/
def memWord (d : Byte) (m : List Host.Cell) (a : Nat) : Nat := ofBe (memRead d m a 4)

/-- Writes the strobed bytes of a word of a memory that reads 0 where nothing is listed. -/
def memStrobe (m : List Host.Cell) (a strobes v : Nat) : List Host.Cell :=
  (List.range 4).foldl (fun m i => if bit strobes i then memPut 0 m (a + i) ((be 4 v).getD i 0) else m) m

/-! ### Status words that registers and GET_STATE share -/

/-- BATON_STATUS (14 Table 14.2). -/
def batonStatus (s : State) : Nat :=
  let a := s.unit 0
  let b := s.unit 1
  s.cu.holder + 2 * b2n s.cu.held + 4 * b2n s.cu.passing + 8 * b2n a.wdogExpired + 16 * b2n b.wdogExpired +
    32 * b2n a.inReset + 64 * b2n b.inReset + 128 * b2n a.claim + 256 * b2n b.claim + 65536 * (s.cu.passes % 65536)

/-- PWR_STATUS (17 Table 17.8). -/
def powerStatus (s : State) : Nat :=
  let p := s.pwr
  p.state.ctorIdx + 4 * p.target.ctorIdx + 16 * b2n p.busy + 32 * p.stage + 256 * b2n (p.latched.any fun k => decide (3 ≤ k)) +
    512 * (p.block % 16) + 8192 * (p.wakeStep % 8) + 65536 * (p.attempt % 4) + 2 ^ 18 * b2n p.wakeFailed +
    2 ^ 19 * b2n p.slowXtal

/-- PWR_SAG (17 R398). -/
def powerSag (s : State) : Nat := min s.pwr.sag 255 + 256 * (s.pwr.worstRail % 16)

/-- The counters of the power controller in the order of 17 R398. -/
def powerCounters (s : State) : List Nat :=
  [s.pwr.transitions, s.pwr.refusals, s.pwr.wakeRepeats, s.pwr.wakeFailures] ++
    (List.range 5).map fun k => tget s.pwr.stageEntries (k + 1) 0

/-- The engine status word (08 Table 8.10). -/
def engStatus (s : State) (e : Nat) : Nat :=
  let g := s.eng e
  let st := if !g.loaded then 0 else if g.fault then 7 else if g.stopped then 6 else if g.waito then 5
    else if g.stall.isSome && decide (2 ≤ g.stallKind) && decide (g.stallKind ≤ 4) then g.stallKind else 1
  let slot := match g.stream with | some p => p.slot | none => g.lastSlot
  st + 8 * b2n (g.loaded && s.stopAsked e && !g.stopped && !g.interruptible) + 16 * (g.loops.length % 4) + 64 * (g.pc % 4096) +
    2 ^ 18 * (g.queue.length % 4) + 2 ^ 20 * b2n (g.stream.isSome && !g.streamDone) +
    2 ^ 21 * b2n (!g.writeBack.isEmpty || g.streamDone) + 2 ^ 22 * (slot % 64)

/-- PARKED: the holder while the baton is held, else the boot sequencer (15 R358). -/
def parked (s : State) : Nat := if s.cu.held then s.cu.holder else 5

/-- SYSCTL_CONFIG (15 Table 15.4). -/
def sysctlConfig (s : State) : Nat :=
  b2n s.bus.remapA + 2 * b2n s.bus.remapB + 4 * b2n s.bus.slices + 8 * b2n s.bus.forceSlices + 16 * parked s

/-! ### The address map (15 R353 to R355, R359, R360) -/

/-- Whether a master has a path to a target (15 Table 15.2). -/
def busPath (m : Nat) (t : BusTarget) : Bool :=
  match t with
  | .rom | .flash => [0, 1, 4, 5].contains m
  | .localA => [0, 4, 5].contains m
  | .localB => [1, 4, 5].contains m
  | .retained | .sram | .device => true
  | .ports | .datapath | .hbm | .engines => [0, 1, 4].contains m

/-- Whether a bus master exists on the variant (15 R350). -/
def masterPresent (v : Variant) (m : Nat) : Bool := decide (m ≤ 5) && !(m == 3 && v == .gl1024)

/-- Whether the device register space holds a register at an offset from 0x20000000 (15 Table 15.3). A block of which the
spec states no layout holds one everywhere (log entry 33). -/
def deviceHas (v : Variant) (o : Nat) : Bool :=
  let r := o % 0x10000
  let within := fun (a b : Nat) => decide (a ≤ r) && decide (r < b)
  match o / 0x10000 with
  | 0x0 => r == 0 || r == 4 || (within 0x10 0x28 && masterPresent v ((r - 0x10) / 4)) ||
      (within 0x40 0x100 && (decide (r % 0x20 < 0x18) || r % 0x20 == 0x1C) && masterPresent v ((r - 0x40) / 0x20))
  | 0x1 => decide (r < 0x28)
  | 0x2 => decide (r < 0x0C) || within 0x10 0x38 || within 0x40 0x64
  | 0x3 => decide (r < 0x80) || within 0x100 0x508 || within 0x1000 0x2014 || within 0x3000 0x4000
  | 0x4 => decide (r < 0x4000)
  | 0x5 => (decide (r < 0x4000) && (decide (r % 0x1000 < 0x18) || decide (0x800 ≤ r % 0x1000))) || r == 0x4000
  | 0x6 | 0x7 | 0xA => true
  | 0x9 => decide (r < 0x800) && decide (r % 0x20 < 0x18)
  | _ => false

/-- Whether an engine window holds something at an offset (15 Table 15.5). -/
def engineHas (o : Nat) : Bool :=
  decide (o < 0x55600) || o == 0x56000 || o == 0x56004 || (decide (0x57000 ≤ o) && decide (o < 0x57100))

/-- The target and offset of an address for a master; none where the map holds nothing (15 Table 15.3, R355). -/
def busDecode (s : State) (m a : Nat) : Option (BusTarget × Nat) :=
  let remap := if m = 0 then s.bus.remapA else if m = 1 then s.bus.remapB else false
  let own : BusTarget := if m = 1 then .localB else .localA
  let window := fun (isRom : Bool) (o : Nat) =>
    if isRom then (if o < 0x40000 then some (BusTarget.rom, o) else none) else some (own, o)
  if a < 0x200000 then window (!remap) a
  else if a < 0x400000 then window remap (a - 0x200000)
  else if 0x01000000 ≤ a ∧ a < 0x01200000 then some (.localA, a - 0x01000000)
  else if 0x01200000 ≤ a ∧ a < 0x01400000 then some (.localB, a - 0x01200000)
  else if 0x04000000 ≤ a ∧ a < 0x08000000 then
    if 0x043F0000 ≤ a ∧ a < 0x04400000 then none else some (.retained, a - 0x04000000)
  else if 0x08000000 ≤ a ∧ a < 0x08100000 then some (.sram, a - 0x08000000)
  else if 0x10000000 ≤ a ∧ a < 0x20000000 then some (.flash, a - 0x10000000)
  else if 0x20000000 ≤ a ∧ a < 0x200B0000 then
    if deviceHas s.fuses.variant (a - 0x20000000) then some (.device, a - 0x20000000) else none
  else if 0x21000000 ≤ a ∧ a < 0x21100000 then
    let o := a - 0x21000000
    if o < 0x1000 * halfPortsOf s.fuses.variant ∨ (0x80000 ≤ o ∧ o < 0x81000) then some (.ports, o) else none
  else if 0x22000000 ≤ a ∧ a < 0x23000000 then some (.datapath, a - 0x22000000)
  else if 0x30000000 ≤ a ∧ a < 0x40000000 then
    let h := 0x10000000 * tget s.bus.windows m 0 + (a - 0x30000000)
    if h < hbmCapacity s.fuses.variant then some (.hbm, h) else none
  else if 0x40000000 ≤ a ∧ a < 0x50000000 then
    let o := a - 0x40000000
    if o / 0x80000 < enginesOf s.fuses.variant ∧ engineHas (o % 0x80000) = true then some (.engines, o) else none
  else none

/-- Whether a DMA master may write there (15, under Table 15.2). -/
def dmaMayWrite (t : BusTarget) (o : Nat) : Bool :=
  match t with
  | .sram => true
  | .retained => decide (0x400000 ≤ o)
  | .device => decide (0x50000 ≤ o) && decide (o < 0x54000) && decide (0x800 ≤ o % 0x1000)
  | _ => false

/-- Whether a Ringmaster may write there: the holder everywhere, the other unit its own memory, its own area of the journal
retention group and its own WDOG_KICK (14 R329, R330; log entry 34). -/
def unitMayWrite (s : State) (u : Nat) (t : BusTarget) (o : Nat) : Bool :=
  (s.cu.held && s.cu.holder == u) ||
  (match t with
   | .localA => u == 0
   | .localB => u == 1
   | .retained => decide (0x3E0000 + 0x8000 * u ≤ o) && decide (o < 0x3E8000 + 0x8000 * u)
   | .device => o == 0x10004 + 4 * u
   | _ => false)

/-- Where a transaction goes. -/
def busDest (s : State) (m : Nat) (write : Bool) (a : Nat) : BusDest :=
  match busDecode s m a with
  | none => .nowhere
  | some (t, o) =>
    if !busPath m t || s.bus.closed.contains t then .nowhere
    else if write && (m == 3 || (m == 2 && s.fuses.variant == .gl1024)) && !dmaMayWrite t o then .nowhere
    else if write && decide (m ≤ 1) && !unitMayWrite s m t o then .denied
    else if write && m == 5 && t == .device && decide (0x30000 ≤ o) && decide (o < 0x40000) then .denied
    else if write && t == .engines && decide (o % 0x80000 / 0x40 ≠ 0x56000 / 0x40) && (s.eng (o / 0x80000)).loaded then .denied
    else if t == .hbm && s.hbm.state == 1 then .frozen
    else .served t o

/-! ### Reading a word of a target -/

/-- A device register (15 Tables 15.3 and 15.4; 14 Table 14.2; 16 Table 16.6; 17 R398; 18 R410; 12 R297). -/
def deviceRead (s : State) (o : Nat) : State × Nat :=
  let r := o % 0x10000
  match o / 0x10000 with
  | 0x0 => (s,
      if r = 0 then sysctlConfig s else if r = 4 then bootStatus s
      else if r < 0x28 then tget s.bus.windows ((r - 0x10) / 4) 0
      else if r % 0x20 < 0x18 then tget s.bus.counters (8 * ((r - 0x40) / 0x20) + r % 0x20 / 4) 0 else 0)
  | 0x1 => (s, if r = 0 then batonStatus s else if r = 0x0C then s.cu.effectJsn / 2 ^ 32
      else if r = 0x10 then s.cu.effectJsn % 2 ^ 32 else 0)
  | 0x2 => (s, if r = 0 then powerStatus s else if r = 4 then powerSag s else if r = 8 then ofSigned 32 s.pwr.junction
      else if r < 0x40 then tget s.pwr.rails ((r - 0x10) / 4) 0 else (powerCounters s).getD ((r - 0x40) / 4) 0)
  | 0x3 => (s,
      if r < 0x80 then fld (stickyMap s) r 4
      else if r < 0x500 then ofBe ((List.range 4).map fun i => s.route (r - 0x100 + i))
      else if r = 0x500 then pinsByte s
      else if r < 0x1000 then 0
      else if r < 0x2000 then tget s.ev.occurrences ((r - 0x1000) / 4) 0
      else if r < 0x3000 then
        [s.ev.packetsSent, s.ev.packetsDropped, s.ev.recordsSent, s.ev.recordsDropped, s.ev.overflows].getD ((r - 0x2000) / 4) 0
      else fld (faultBytes (tfind s.ev.faults ((r - 0x3000) / 64))) (r % 64) 4)
  | 0x5 => (s, calRead s r)
  | 0x9 =>
    let x := s.dch (r / 0x20)
    (s, match r % 0x20 with
      | 0x00 => s.dmaStatus (r / 0x20)
      | 0x04 => x.current
      | 0x08 => x.remain
      | 0x0C => x.linkExpect
      | 0x14 => x.cause
      | _ => 0)
  | _ => freeRead s

/-- The eight bytes of a directory entry, bits [63:32] first (08 Table 8.5). -/
def EngSlot.entry (x : EngSlot) : Nat :=
  x.tile % 2 ^ 14 + 2 ^ 14 * (x.chan % 65536) + 2 ^ 30 * b2n x.valid + 2 ^ 31 * b2n (x.busyBy != 0) + 2 ^ 32 * x.busyBy +
    2 ^ 35 * b2n x.overflow + 2 ^ 36 * b2n x.poisoned + 2 ^ 37 * (x.replays % 4) + 2 ^ 39 * b2n x.tokenWait

/-- The sequencer registers in the order of 08 Table 8.7 (log entry 35). -/
def Engine.seqRegs (g : Engine) : List Nat :=
  let eight := fun (t : Tab Nat) => (List.range 8).map fun k => tget t k 0
  (List.range 16).map g.reg ++ eight g.a ++ eight g.cb ++ eight g.cl ++ [tget g.lc 0 0, tget g.lc 1 0, g.pc]

/-- A word of an engine window at a word-aligned offset (15 Table 15.5; 08 R190). -/
def engineRead (s : State) (e o : Nat) : Nat :=
  let g := s.eng e
  if o < 0x30000 then (g.lineAt (o / 64)).getD (o % 64 / 4) 0
  else if o < 0x4F800 then
    let p := (o - 0x30000) % 3072
    let r := tget (g.slot ((o - 0x30000) / 3072)).records (p / 12) {}
    [r.re, r.im, r.weight].getD (p % 12 / 4) 0
  else if o < 0x4F950 then
    let x := (g.slot ((o - 0x4F800) / 8)).entry
    if o % 8 = 0 then x / 2 ^ 32 else x % 2 ^ 32
  else if o < 0x50000 then 0
  else if o < 0x54000 then g.code.getD ((o - 0x50000) / 4) 0
  else if o < 0x55000 then tget g.consts ((o - 0x54000) / 4) 0
  else if o < 0x56000 then
    let v := (o - 0x55000) / 2
    tget g.valid v 0 * 65536 + tget g.valid (v + 1) 0
  else if o = 0x56000 then engStatus s e
  else if o = 0x56004 then g.cause
  else g.seqRegs.getD ((o - 0x57000) / 4) 0

/-- The byte offset of the area of unit `u` in the journal retention group; its first two words are the unit's mailbox and commit
words (14 Table 14.3; DESIGN CHOICE, log entry 154). -/
def mailboxBase (u : Nat) : Nat := 0x3E0000 + 0x8000 * u

/-- The epoch buffer that an offset of the journal retention group lies in. -/
def epochAt (o : Nat) : Option Nat := [0, 1].find? fun i => decide (epochBase i ≤ o) && decide (o < epochBase i + epochSize)

/-- A word that the holder or a unit has written to the journal retention group (14 Tables 14.3, 14.5; 13 Table 13.11): none where the
spec does not say what stands there. -/
def groupHeld (s : State) (o : Nat) : Option Nat :=
  if o < 0x40000 then
    match s.cmd.journal.find? fun e => journalSlot e.jsn == 64 * (o / 64) with
    | some e => some (fld e.bytes (o % 64) 4)
    | none => some 0
  else match epochAt o with
    | some i =>
      let b := tget s.cu.buffers i {}
      let k := o - epochBase i
      if k < 32 then some (fld b.header k 4) else if k < 32 + b.length then some (fld b.bytes (k - 32) 4) else none
    | none =>
      if o < mailboxBase 0 then none
      else
        let u := if o < mailboxBase 1 then 0 else 1
        let k := o - mailboxBase u
        some (if k = 0 then (s.unit u).mailbox else if k = 4 then (s.unit u).commitWord else 0)

/-- A read of a word of the journal retention group: what the bus has written since, or what stands there. -/
def groupRead (s : State) (o : Nat) : State × Nat :=
  match tfind s.cu.group0 (o / 4), groupHeld s o with
  | some w, _ => (s, w)
  | none, some w => (s, w)
  | none, none => freeRead s

/-- A write of a word of the journal retention group. A changed header or body fails the checks of its epoch (14 R338). -/
def groupWrite (o strobes v : Nat) (s : State) : State :=
  let (s, old) := groupRead s o
  let w := mergeStrobes old strobes v
  let mine := [0, 1].find? fun u => o == mailboxBase u || o == mailboxBase u + 4
  match mine with
  | some u => s.onUnit u fun x => if o = mailboxBase u then { x with mailbox := w } else { x with commitWord := w }
  | none =>
    let s := { s with cu := { s.cu with group0 := tput s.cu.group0 (o / 4) w } }
    match epochAt o with
    | some i =>
      if (o - epochBase i < 32 + (tget s.cu.buffers i {}).length) ∧ w ≠ old then
        { s with cu := { s.cu with buffers := tmod s.cu.buffers i {} fun b => { b with complete := false } } }
      else s
    | none => s

/-- A word of a target; a reserved word, which a later beat may reach, reads 0 (00 Table 0.4). -/
def targetRead (s : State) (t : BusTarget) (o : Nat) : State × Nat :=
  match t with
  | .rom => (s, (Config.bootRom (o / 4)).toNat)
  | .localA => (s, memWord 0 s.bus.localA o)
  | .localB => (s, memWord 0 s.bus.localB o)
  | .retained => if o < 0x400000 then groupRead s o else (s, memWord 0 s.bus.retained o)
  | .sram => (s, memWord 0 s.bus.sram o)
  | .flash => if o < s.boot.flashSize then (s, memWord 0xFF s.boot.flash o) else freeRead s
  | .device => if deviceHas s.fuses.variant o then deviceRead s o else (s, 0)
  | .ports | .datapath => freeRead s
  | .hbm => if s.hbm.state = 0 then (controlAccess false o ((takeBad 6 o 4 s).1), ofBe (s.hbmRead o 4)) else freeRead s
  | .engines => (s, if engineHas (o % 0x80000) then engineRead s (o / 0x80000) (o % 0x80000) else 0)

/-! ### Writing a word of a target -/

/-- A write of SYSCTL_CONFIG: only masters 4 and 5 change its fields (15 R356). -/
def sysctlWrite (m v : Nat) (s : State) : State :=
  if m = 4 ∨ m = 5 then
    { s with bus := { s.bus with remapA := bit v 0, remapB := bit v 1, forceSlices := bit v 3 } }
  else busDenied m s

/-- Clears a master's counters (15 R363). -/
def clearBusCounters (k v : Nat) (s : State) : State :=
  if bit v 0 then { s with bus := { s.bus with counters := s.bus.counters.filter fun e => e.1 / 8 != k } } else s

/-- A write of a device register other than COMMIT_JSN_LO. -/
def deviceWrite (m o v : Nat) (s : State) : State :=
  let r := o % 0x10000
  match o / 0x10000 with
  | 0x0 =>
    if r = 0 then sysctlWrite m v s
    else if r = 4 then
      let s := if bit v 8 then bootRelease m 0 s else s
      if bit v 9 then bootRelease m 1 s else s
    else if r < 0x28 then
      { s with bus := { s.bus with windows := tput s.bus.windows ((r - 0x10) / 4) (v % 512) } }
    else if r % 0x20 = 0x1C then clearBusCounters ((r - 0x40) / 0x20) v s
    else s
  | 0x1 => match r with
    | 0x04 => wdogKick m 0 v s
    | 0x08 => wdogKick m 1 v s
    | 0x14 => { s with cu := { s.cu with commitAddr := v } }
    | 0x18 => { s with cu := { s.cu with commitData := v } }
    | 0x1C => { s with cu := { s.cu with commitJsnHi := v } }
    | 0x24 => releaseBaton s
    | _ => s
  | 0x3 =>
    if r < 0x80 then stickyW1c (r / 4) v s
    else if r < 0x500 then
      let put := fun (t : Tab Byte) (i : Nat) =>
        let e := r - 0x100 + i
        if eventPresent s.fuses.variant e then tput t e ((be 4 v).getD i 0 &&& 0x0F#8) else t
      { s with ev := { s.ev with routes := (List.range 4).foldl put s.ev.routes } }
    else if r = 0x504 ∧ bit v 0 = true then clearOccurrences s
    else s
  | 0x5 =>
    if r = 0x4000 then calStrobe (v % 256) s.cycle false s
    else if 0x800 ≤ r % 0x1000 then calAperture (r / 0x1000) v s
    else s
  | 0x9 =>
    let c := r / 0x20
    match r % 0x20 with
    | 0x0C => s.onDch c fun x => { x with linkExpect := v }
    | 0x10 => if 60 < c ∨ s.progOwned c = true then dmaCause c 7 s else (linkChain c (s.dch c).linkExpect v s).1
    | 0x14 => s.onDch c fun x => { x with cause := x.cause - (x.cause &&& v) }
    | _ => s
  | _ => s

/-- A write of a word of an engine window, of the strobed bytes in its stores; the directory and the registers are read only
(15 R360, 08 R191). -/
def engineWrite (e o strobes v : Nat) (s : State) : State :=
  let w := mergeStrobes (engineRead s e o) strobes v
  if o < 0x30000 then
    s.onEng e fun g => { g with lines := tput g.lines (o / 64) ((g.lineAt (o / 64)).set (o % 64 / 4) w) }
  else if o < 0x4F800 then
    let p := (o - 0x30000) % 3072
    s.onEngSlot e ((o - 0x30000) / 3072) fun x => { x with records := tmod x.records (p / 12) {} fun r =>
      match p % 12 / 4 with
      | 0 => { r with re := w }
      | 1 => { r with im := w }
      | _ => { r with weight := w } }
  else if o < 0x50000 then s
  else if o < 0x54000 then
    let k := (o - 0x50000) / 4
    s.onEng e fun g => { g with code := (g.code ++ List.replicate (k + 1 - g.code.length) 0).set k w }
  else if o < 0x55000 then s.onEng e fun g => { g with consts := tput g.consts ((o - 0x54000) / 4) w }
  else if o < 0x56000 then
    let k := (o - 0x55000) / 2
    s.onEng e fun g => { g with valid := tput (tput g.valid k (w / 65536)) (k + 1) (w % 65536) }
  else if o = 0x56004 ∧ strobes = 15 then s.onEng e fun g => { g with cause := g.cause - (g.cause &&& v) }
  else s

/-- Whether a word of a target is a register, which takes no partial write (15 R352). -/
def isRegister (t : BusTarget) (o : Nat) : Bool :=
  match t with
  | .device | .ports | .datapath => true
  | .engines => decide (0x56000 ≤ o % 0x80000)
  | _ => false

/-- A write of a word that is not COMMIT_JSN_LO; of a register with all strobes on. Boot ROM and flash are read only; the
areas whose layout the spec does not state take no modelled effect (log entry 33). -/
def plainWrite (m : Nat) (t : BusTarget) (o strobes v : Nat) (s : State) : State :=
  match t with
  | .localA => { s with bus := { s.bus with localA := memStrobe s.bus.localA o strobes v } }
  | .localB => { s with bus := { s.bus with localB := memStrobe s.bus.localB o strobes v } }
  | .retained =>
    if o < 0x400000 then groupWrite o strobes v s else { s with bus := { s.bus with retained := memStrobe s.bus.retained o strobes v } }
  | .sram => { s with bus := { s.bus with sram := memStrobe s.bus.sram o strobes v } }
  | .device => if deviceHas s.fuses.variant o then deviceWrite m o v s else s
  | .hbm => if s.hbm.state = 0 then
      (List.range 4).foldl (fun s i => if bit strobes i then s.hbmWrite (o + i) [(be 4 v).getD i 0] else s) (controlAccess true o s) else s
  | .engines => if engineHas (o % 0x80000) then engineWrite (o / 0x80000) (o % 0x80000) strobes v s else s
  | .rom | .flash | .ports | .datapath => s

/-- A decode error (15 R357). -/
def decodeError (m : Nat) (s : State) : State := raise 913 (busCount m .decodeErrors s)

/-- Whether the domain of a target is powered, so that the target answers (01 R17, Table 1.2): the channeliser, the Carousel and
the engines are off in DOZE and SLEEP. At boot every domain comes up with step 2. A target that is off keeps no state and does
not answer, so that the transaction ends by EV_BUS_TIMEOUT (log entry 127). -/
def State.answers (s : State) (t : BusTarget) : Bool :=
  match t with
  | .datapath | .engines => s.pwr.state.awake || s.boot.step != 0
  | _ => true

/-- A trigger write: COMMIT_DATA to COMMIT_ADDR, which is itself no commit (14 R335). -/
def triggerWrite (m : Nat) (s : State) : State :=
  if s.cu.commitAddr = 0 then s
  else match busDest s m true s.cu.commitAddr with
    | .served t o => if s.answers t then plainWrite m t (o / 4 * 4) 15 s.cu.commitData s else s
    | .nowhere => decodeError m s
    | .denied => busDenied m s
    | .frozen => busCount m .frozen s

/-- COMMIT_JSN_LO: the trigger write, and EFFECT_JSN takes the command's JSN, in one transaction (14 R335). -/
def commitJsn (m v : Nat) (s : State) : State :=
  let s := triggerWrite m s
  { s with cu := { s.cu with effectJsn := s.cu.commitJsnHi * 2 ^ 32 + v } }

/-- A write beat at a target under the strobe rules of 15 R352. -/
def targetWrite (m : Nat) (t : BusTarget) (o strobes v : Nat) (s : State) : State :=
  if strobes % 16 = 0 then s
  else if isRegister t o && strobes % 16 != 15 then decodeError m s
  else if t = .device ∧ o = 0x10020 then commitJsn m (v % 2 ^ 32) s
  else plainWrite m t o (strobes % 16) (v % 2 ^ 32) s

/-! ### Transactions (15 R351, R357, R359) -/

/-- Whether a master can issue a transaction: its port is not idle, it is not in reset, and the control domain runs. -/
def masterLive (s : State) (m : Nat) : Bool :=
  masterPresent s.fuses.variant m && s.ctlLive && !s.bus.portIdle.contains m && !(decide (m ≤ 1) && (s.unit m).inReset)

/-- Whether a transaction is well formed (15 R351). -/
def busFormOk (a beats : Nat) : Bool :=
  decide (1 ≤ beats) && decide (beats ≤ 16) && a % 4 == 0 && decide (a < 2 ^ 32) && a / 64 == (a + 4 * beats - 1) / 64

/-- The words that a read returned, as a master's port received them. -/
def setReadData (m : Nat) (ws : List Nat) (s : State) : State :=
  { s with bus := { s.bus with readData := tput s.bus.readData m ws } }

/-- The transaction in progress at a target. -/
def busHolder (t : BusTarget) (s : State) : Bool := s.bus.outstanding.any fun e => e.2.target == t

/-- A request reaches the matrix: one that reaches no target completes at once; one whose target has no transaction in progress is
granted and is outstanding; any other waits at the target's arbiter (15 R351, R357, R358). -/
def busAccept (m : Nat) (write : Bool) (a : Nat) (data : List (Nat × Nat)) (stops : List Nat) (s : State) : State :=
  let zeros := fun s => if write then s else setReadData m (List.replicate data.length 0) s
  match busDest s m write a with
  | .nowhere => zeros (decodeError m (busCount m .transactions s))
  | .denied => busDenied m (busCount m .transactions s)
  | .frozen => zeros (busCount m .frozen (busCount m .transactions s))
  | .served t o =>
    if busHolder t s then
      { s with bus := { s.bus with requests := tput s.bus.requests m { write := write, addr := a, data := data, stops := stops } } }
    else
      let s := busCount m .transactions s
      let s := if write then s else setReadData m [] s
      let x : BusPending := { write := write, target := t, offset := o, beats := data.length, done := 0, data := data
                              stops := stops, since := s.cycle }
      { s with bus := { s.bus with
        outstanding := tput s.bus.outstanding m x, granted := tput s.bus.granted t.ctorIdx m } }

/-- The waiting requests are offered to a target's arbiter round robin, in ascending master number after the one it granted last
(15 R358). -/
def busResume (t : BusTarget) (s : State) : State :=
  let last := tget s.bus.granted t.ctorIdx 5
  ((List.range 6).map fun i => (last + 1 + i) % 6).foldl (fun s m =>
    match tfind s.bus.requests m with
    | some r => busAccept m r.write r.addr r.data r.stops { s with bus := { s.bus with requests := tdel s.bus.requests m } }
    | none => s) s

/-- The target that a master's waiting request asks for. -/
def requestTarget (s : State) (m : Nat) : Option BusTarget :=
  match tfind s.bus.requests m with
  | some r => match busDest s m r.write r.addr with | .served t _ => some t | _ => none
  | none => none

/-- A transaction through the HBM window of a controller that has frozen completes at once: what is still to be read reads 0, what is
still to be written is dropped (15 R359). -/
def busFrozen (m : Nat) (x : BusPending) (s : State) : State :=
  let s := if x.write then s
    else setReadData m (tget s.bus.readData m [] ++ List.replicate (x.beats - x.done) 0) s
  busResume .hbm (busCount m .frozen { s with bus := { s.bus with outstanding := tdel s.bus.outstanding m } })

/-- One beat of a master's outstanding transaction, where its target answers; the last completes it. A write of the debug access port
into the datapath registers may request engines to stop (08 R201; log entry 36). -/
def busBeat (m : Nat) (s : State) : State :=
  match tfind s.bus.outstanding m with
  | none => s
  | some x =>
    if !s.answers x.target then s
    else if x.target = .hbm ∧ s.hbm.state = 1 then busFrozen m x s
    else if x.target = .hbm ∧ s.portShare 6 = some 0 then s
    else
    let o := x.offset + 4 * x.done
    let s :=
      if x.write then
        let d := x.data.getD x.done (0, 0)
        targetWrite m x.target o d.1 d.2 s
      else
        let (s, w) := targetRead s x.target o
        setReadData m (tget s.bus.readData m [] ++ [w]) s
    if !thas s.bus.outstanding m then s
    else if x.done + 1 < x.beats then
      { s with bus := { s.bus with outstanding := tput s.bus.outstanding m { x with done := x.done + 1 } } }
    else
      let s := busResume x.target { s with bus := { s.bus with outstanding := tdel s.bus.outstanding m } }
      if x.write && m == 4 && x.target == .datapath then
        x.stops.foldl (fun s e => if e < enginesOf s.fuses.variant then s.onEng e fun g => { g with debug := true } else s) s
      else s

/-- The next `n` beats of a master's transaction; a request whose target has fallen idle is first offered again. -/
def busBeats (m n : Nat) (s : State) : State :=
  let s := match requestTarget s m with
    | some t => busResume t s
    | none => s
  (List.range n).foldl (fun s _ => busBeat m s) s

/-- Whether the beats of a master's transaction wait for the CONTROL port of the HBM controller (07 R170). -/
def beatsWait (s : State) (m : Nat) : Bool :=
  match tfind s.bus.outstanding m with
  | some x => x.target == .hbm && s.hbm.state == 0 && !s.grantedLow 6 64
  | none => false

/-- Whether a master's port is taken. -/
def portTaken (s : State) (m : Nat) : Bool := thas s.bus.outstanding m || thas s.bus.requests m

/-- A whole transaction of a master that can issue one now; where another is in progress at its target, its request waits. -/
def busRun (m : Nat) (write : Bool) (a : Nat) (data : List (Nat × Nat)) (s : State) : State :=
  if masterLive s m && busFormOk a data.length && !portTaken s m then
    busBeats m data.length (busAccept m write a data [] s)
  else s

/-- BUS_TRANSACTION: a master issues a transaction, of which `done` beats pass, or, while one is outstanding or waits, `done` more of
its beats pass, unless they wait for the HBM controller. -/
def execBusTransaction (m : Nat) (write : Bool) (a : Nat) (beats : List (Nat × Nat)) (done : Nat) (stops : List Nat)
    (s : State) : Host.Outcome State Fault Refusal :=
  .next (
    if !masterLive s m then s
    else if portTaken s m then busBeats m (if beatsWait s m then 0 else min done 16) s
    else if busFormOk a beats.length then busBeats m (min done beats.length) (busAccept m write a beats stops s)
    else s)

/-- REGISTER_WRITE: a whole-word write by a master (00 R6). -/
def execRegisterWrite (m a v : Nat) (s : State) : Host.Outcome State Fault Refusal := .next (busRun m true a [(15, v)] s)

/-- SYSCTL_REMAP_WRITE: a write of SYSCTL_CONFIG by a master (15 R355, R356). -/
def execSysctlRemapWrite (m v : Nat) (s : State) : Host.Outcome State Fault Refusal :=
  .next (busRun m true 0x20000000 [(15, v)] s)

/-- COMMIT_JSN_LO: a write of the register by a master. -/
def execCommitJsnLo (m v : Nat) (s : State) : Host.Outcome State Fault Refusal :=
  .next (busRun m true 0x20010020 [(15, v)] s)

/-- BOOT_STATUS_RELEASE_A: master `m` writes RELEASE_A (19 Table 19.6). -/
def execBootStatusReleaseA (m : Nat) (s : State) : Host.Outcome State Fault Refusal :=
  .next (busRun m true 0x20000004 [(15, 0x100)] s)

/-- BOOT_STATUS_RELEASE_B: master `m` writes RELEASE_B. -/
def execBootStatusReleaseB (m : Nat) (s : State) : Host.Outcome State Fault Refusal :=
  .next (busRun m true 0x20000004 [(15, 0x200)] s)

/-- WDOG_KICK: master `m` writes the WDOG_KICK register of unit `u` (14 R330). -/
def execWdogKick (m u value : Nat) (s : State) : Host.Outcome State Fault Refusal :=
  .next (if 1 < u then s else busRun m true (0x20010004 + 4 * u) [(15, value)] s)

/-- RELEASE: master `m` writes the RELEASE register; of the units only the holder's write counts (14 R328, R329). -/
def execRelease (m : Nat) (s : State) : Host.Outcome State Fault Refusal := .next (busRun m true 0x20010024 [(15, 1)] s)

/-- BUS_COUNTER_CLEAR: a master writes the clear register of master `k` (15 R363). -/
def execBusCounterClear (m k v : Nat) (s : State) : Host.Outcome State Fault Refusal :=
  .next (if k ≤ 5 then busRun m true (0x2000005C + 0x20 * k) [(15, v)] s else s)

/-! ### Timeouts and slices (15, under R360; R361) -/

/-- The location code of a target's word. -/
def busLocation (s : State) (t : BusTarget) (o : Nat) : Bytes :=
  match t with
  | .localA => locUnit 0
  | .localB => locUnit 1
  | .ports => if o < 0x80000 then locBlock .L (4 * (o / 0x1000)) else locDie
  | .hbm => locStack (hbmPlace s.fuses.variant o).stack
  | .engines => locEngine (o / 0x80000)
  | _ => locDie

/-- 10 microseconds pass since the grant of a master's transaction: it completes as one that reaches nothing, and the target
closes until PORST_N. -/
def busTimeout (m : Nat) (s : State) : State :=
  match tfind s.bus.outstanding m with
  | none => s
  | some x =>
    let s := if x.write then s
      else setReadData m (tget s.bus.readData m [] ++ List.replicate (x.beats - x.done) 0) s
    let s := { s with bus := { s.bus with
      outstanding := tdel s.bus.outstanding m
      closed := if s.bus.closed.contains x.target then s.bus.closed else x.target :: s.bus.closed } }
    busResume x.target (raiseFault 915 { loc := busLocation s x.target x.offset } (busCount m .timeouts s))

/-- EV_BUS_TIMEOUT. -/
def execEvBusTimeout (m : Nat) (s : State) : Host.Outcome State Fault Refusal := .next (busTimeout m s)

/-- The transactions outstanding complete, or time out where their targets do not answer. -/
def busDrain (s : State) : State := (List.range 6).foldl (fun s m => busTimeout m (busBeats m 16 s)) s

/-- A transaction of a unit within a command: it waits for the unit's own before it and at the target's arbiter, behind at most five,
and completes, or times out where its target does not answer (15 R351, R358). -/
def busWithin (m : Nat) (write : Bool) (a : Nat) (data : List (Nat × Nat)) (s : State) : State :=
  let busy := portTaken s m || (match busDest s m write a with | .served t _ => busHolder t s | _ => false)
  let s := if busy then (List.range 6).foldl (fun s _ => busDrain s) s else s
  busTimeout m (busRun m write a data s)

/-- Whether a condition of 15 R361 holds that keeps the register slices in; every instruction of the TAP but IDCODE and
BYPASS counts as a test instruction (log entry 37). -/
def slicesWanted (s : State) : Bool :=
  !s.boot.complete || s.working (fun w => match w with | .selftest _ _ _ => true | _ => false) ||
    [0x00, 0x01, 0x03, 0x04, 0x05, 0x06, 0x10].contains s.boot.tapIr || s.cu.passing || (s.unit 0).state == .takingOver ||
    (s.unit 1).state == .takingOver || s.bus.forceSlices

/-- SLICE_MODE_SWITCH: at a quiet point, every outstanding transaction having completed and no request being granted, the slices go in
or out, and the requests held are then granted in the arbiters' order; a transaction that its target does not answer ends first by
EV_BUS_TIMEOUT. -/
def execSliceModeSwitch (s : State) : Host.Outcome State Fault Refusal :=
  .next (
    if s.ctlLive && s.bus.slices != slicesWanted s then
      let held := s.bus.requests
      let s := (List.range 6).foldl (fun s m => busBeats m 16 s) { s with bus := { s.bus with requests := [] } }
      let s := if s.bus.outstanding.isEmpty then { s with bus := { s.bus with slices := slicesWanted s } } else s
      let s := { s with bus := { s.bus with requests := held } }
      if s.bus.outstanding.isEmpty then (List.range 6).foldl (fun s m => busBeats m 0 s) s else s
    else s)

end Sys2Proof.Machine
end

