-- ==== Sys2Proof/Machine/CodeRun.lean ====
section
/-! DEFINITION. What validation learns from running an engine's code: no data steers the sequencer, so its registers, branches and loops
are those of the code, its constants and the acts that came before (08 R195 to R202; 10 R235, R238, R241; 11 R262). -/

namespace Sys2Proof.Machine

/-! ### Running the code -/

/-- The effect of one instruction that does not wait, and of one that does once nothing holds it back, on the sequencer (08 Table
8.8); `lines` and `spw` are those of the programme's passes. -/
def runWord (lines spw w : Nat) (g : Engine) : Engine :=
  let op := wOp w
  let d := bits w 25 22
  let x := g.reg (bits w 21 18)
  let y := g.reg (bits w 17 14)
  let k := bits w 25 23
  let k2 := bits w 21 19
  let next := fun (f : Engine → Engine) => (f g).after g.pc
  let jump := fun (taken : Bool) => g.branch taken (bits w 11 0)
  let r := g.reg d
  if 1 ≤ op ∧ op ≤ 9 then next fun g => g.setReg d (aluValue op x y)
  else match op with
    | 0x0A => next fun g => g.setReg d (ofSigned 24 (x + toSigned 18 (bits w 17 0)))
    | 0x0B => next fun g => g.setReg d (bits w 11 0 * 4096)
    | 0x0C => next fun g => (g.setReg d (x * y)).setReg (d + 1) (x * g.reg (bits w 13 10))
    | 0x0D => next fun g =>
      let v := ofSigned 48 (toSigned 24 x * toSigned 24 y)
      (g.setReg d v).setReg (d + 1) (v / 2 ^ 24)
    | 0x10 => next fun g => { g with a := tput g.a k (y % 2 ^ 16) }
    | 0x11 => next fun g => g.setReg d (g.effAddr k2)
    | 0x12 => next fun g => g.advanceAddr k (toSigned 16 (bits w 15 0))
    | 0x13 => next fun g =>
      { g with cb := tput g.cb k (y % 2 ^ 16), cl := tput g.cl k (g.reg (bits w 13 10) % 2 ^ 16), a := tput g.a k (y % 2 ^ 16) }
    | 0x14 => next fun g => g.setReg d (tget g.consts ((g.effAddr k2 + bits w 11 0) % 1024) 0)
    | 0x15 => next fun g => { g with consts := tput g.consts ((g.effAddr k2 + bits w 11 0) % 1024) y }
    | 0x16 => next fun g => g.setReg d (tget g.lc (bits w 21 21) 0)
    | 0x18 => jump true
    | 0x19 => jump (r == 0)
    | 0x1A => jump (r != 0)
    | 0x1B => jump (decide (toSigned 24 r < 0))
    | 0x1C => jump (decide (0 ≤ toSigned 24 r))
    | 0x1D => (g.setReg 15 (g.pc + 3)).branch true (bits w 11 0)
    | 0x1E => g.branch true r
    | 0x20 => g.repeat' (bits w 25 25) (repLen w) (bits w 15 0)
    | 0x21 => g.repeat' (bits w 25 25) (repLen w) (y % 2 ^ 16)
    | 0x2C => next fun g =>
      let g := if bit w 8 then g.advanceAddr k lines else g
      if bit w 7 then g.advanceAddr (bits w 22 20) lines else g
    | 0x2D => next fun g => if bit w 8 then g.advanceAddr k 16 else g
    | 0x2E => next fun g => if bit w 7 then g.advanceAddr (bits w 22 20) (16 / spw : Nat) else g
    | _ => next id

/-- An instruction of a run: its address and word, and the tile and channel that a TACQ there binds. -/
structure RunStep where
  addr : Nat
  word : Nat
  tile : Nat
  chan : Nat

/-- Whether a run keeps a step of a word: passes, TACQ and DKICK. -/
def keepsStep (w : Nat) : Bool := isPass w || wOp w == 0x28 || wOp w == 0x2F

/-- Runs an act to its WAITO, or for so many instructions; the steps are kept latest first. -/
def runAct (lines spw : Nat) (ws : Array Nat) (fuel : Nat) (g : Engine) (steps : List RunStep) : Engine × List RunStep :=
  match fuel with
  | 0 => (g, steps)
  | fuel + 1 =>
    let w := ws.getD g.pc 0
    if ws.size ≤ g.pc then (g, steps)
    else if isWaito w then ({ g with pc := (g.pc + 1) % 4096 }, steps)
    else
      let steps := if keepsStep w then
          { addr := g.pc, word := w, tile := g.reg (bits w 19 16) % 2 ^ 14, chan := g.reg (bits w 15 12) % 2 ^ 16 } :: steps
        else steps
      runAct lines spw ws fuel (runWord lines spw w g) steps

/-! ### The acts of frames (11 R262) -/

/-- The phases that the acts tell apart: those that acts name, and one that none names. -/
def phasesOf (p : Programme) : List Nat :=
  let named := (p.acts.filter fun a => !a.everyOrbit).map (·.phase)
  (p.nInt :: named).eraseDups

/-- Acts due in a frame of a phase, ONCE acts among them: the first frame may be of any phase (11 R262). -/
def actsAt (p : Programme) (phase : Nat) : List Act := p.acts.filter fun a => a.once || a.everyOrbit || a.phase == phase

/-- The acts of an engine among a list. -/
def engineActs (as : List Act) (e : Nat) : List Act :=
  as.filter fun a => a.kind == 1 && decide (a.first ≤ e) && decide (e < a.first + a.count)

/-- The acts that an engine runs in a frame of a phase: in a first frame its ONCE acts come before the others. -/
def frameActs (p : Programme) (e phase : Nat) (first : Bool) : List Act :=
  let as := engineActs (actsAt p phase) e
  (if first then as.filter (·.once) else []) ++ as.filter fun a => !a.once

/-- The core cycles of an orbit: no act that ends within its frame issues more instructions. -/
def Programme.orbitCycles (p : Programme) : Nat := p.t * 10 ^ 9 / max 1 p.fsHz

/-- The phases of the frames that validation runs from a first one: each phase in turn, round to the first again and once more (log
entry 66). -/
def frameOrder (p : Programme) (first : Nat) : List Nat :=
  let ps := (phasesOf p).mergeSort
  let turn := (ps.filter fun x => decide (first ≤ x)) ++ ps.filter fun x => decide (x < first)
  turn ++ turn

/-- The steps that an engine's code takes in the frames from a first one of a phase: per frame its phase and its steps in order. -/
def frameRuns (p : Programme) (c : ProgCode) (first : Nat) : List (Nat × List RunStep) :=
  let start : Engine := { consts := (List.range c.consts.length).zip c.consts }
  let ws := c.code.toArray
  let frame := fun (y : Engine × List (Nat × List RunStep)) (x : Nat × Nat) =>
    let (g, steps) := (frameActs p c.engine x.2 (x.1 == 0)).foldl (fun (z : Engine × List RunStep) a =>
      runAct p.passLines p.spw ws p.orbitCycles { z.1 with pc := a.entry % 4096, delay := none, loops := [] } z.2) (y.1, [])
    (g, y.2 ++ [(x.2, steps.reverse)])
  let order := frameOrder p first
  (((List.range order.length).zip order).foldl frame (start, [])).2

/-! ### What the runs show (10 R235, R238, R241) -/

/-- The array cycles of a frame's steps (10 R241). -/
def stepCycles (lines : Nat) (steps : List RunStep) : Nat :=
  sumOf (fun x => if wOp x.word = 0x2C then lines + 2 else if wOp x.word = 0x2E then 16 else 0) steps

/-- The array cycles of an engine in the frames of a phase, at most (10 R241). -/
def engineCycles (p : Programme) (phase : Nat) (c : ProgCode) : Nat :=
  (((phasesOf p).flatMap fun f => (frameRuns p c f).filter fun x => x.1 == phase).map fun x =>
    stepCycles p.passLines x.2).foldl max 0

/-- A slot's beam binding in a run: the tile, the channel, and the samples finished under it. -/
structure BeamBind where
  tile : Nat
  chan : Nat
  done : Nat

/-- The power output set that a beam binding feeds, if any. -/
def powerSet (p : Programme) (b : BeamBind) : Option BeamSet :=
  p.beams.find? fun x => x.beams != 0 && bit x.output 1 && decide (16 * ((b.tile - 0x3000) / 16) < x.beams) &&
    decide (x.chFirst ≤ b.chan) && decide (b.chan < x.chFirst + x.chCount) && beamTile b.tile

/-- Whether a binding may end now: no power interval of its set is under way, or one that fits a read block. -/
def intervalClosed (p : Programme) (b : BeamBind) : Bool :=
  match powerSet p b with
  | some x => decide (x.pInt ≤ 256) || b.done % max 1 x.pInt == 0
  | none => true

/-- What a run has shown so far: the bindings by slot, the slot passed on last, and the addresses of TACQs that break 10 R235 or
R238. -/
structure BindWatch where
  binds : Tab BeamBind := []
  last : Option Nat := none
  bad : List Nat := []

/-- One step of the watch: a DKICK of the finish channel behind a pass on a slot finishes one read block's worth of it, 256 samples
on. -/
def bindStep (p : Programme) (m : BindWatch) (x : RunStep) : BindWatch :=
  if isPass x.word then { m with last := some (passSlot x.word) }
  else if wOp x.word = 0x28 then
    let slot := tileSlot x.word
    let old := tfind m.binds slot
    let same := match old with | some b => b.tile == x.tile && b.chan == x.chan | none => false
    let torn := match old with | some b => !same && !intervalClosed p b | none => false
    { m with
      binds := if same then m.binds else tput m.binds slot { tile := x.tile, chan := x.chan, done := 0 }
      bad := if torn || (bit x.word 11 && beamTile x.tile) then x.addr :: m.bad else m.bad }
  else match m.last with
    | some slot => match tfind m.binds slot with
      | some b => match powerSet p b with
        | some y => if y.finishCh = bits x.word 5 0 then
            { m with binds := tput m.binds slot { b with done := b.done + 256 }, last := none } else m
        | none => m
      | none => m
    | none => m

/-- The addresses of the TACQs in an engine's code that bind a beam accumulator with H = 1, or a beam slot anew inside a power
interval (10 R235, R238). -/
def badBinds (p : Programme) (c : ProgCode) : List Nat :=
  ((phasesOf p).flatMap fun f =>
    (((frameRuns p c f).flatMap (·.2)).foldl (bindStep p) {}).bad).eraseDups

end Sys2Proof.Machine
end

