-- ==== Sys2Proof/Machine/Validate.lean ====
section
/-! DEFINITION. The checks of VALIDATE_PROGRAMME, in their order (11_programmes.md R266, Table 11.7, with the rules of other
chapters that its codes name). -/

namespace Sys2Proof.Machine

/-- An error of Table 11.7 or 11.8 with its section, offset in the image and detail (11 R266). -/
structure LoadError where
  code : Nat
  sec : Nat
  off : Nat
  detail : Nat
  deriving DecidableEq, Repr

/-- A check: whether it holds, and the error if it does not. -/
abbrev Check := Bool × LoadError

/-- A check with its error. -/
def ck (ok : Bool) (code sec off detail : Nat) : Check := (ok, { code := code, sec := sec, off := off, detail := detail })

/-- The first failure. -/
def firstFailure (cs : List Check) : Option LoadError := (cs.find? fun c => !c.1).map (·.2)

/-- Whether every byte of a range is 0. -/
def zeroBytes (b : Bytes) (off n : Nat) : Bool := (slice b off n).all fun x => x == 0

/-- A power of two. -/
def isPow2 (n : Nat) : Bool := n != 0 && 2 ^ Nat.log2 n == n

/-- Whether a list rises strictly. -/
def rising : List Nat → Bool
  | a :: b :: t => decide (a < b) && rising (b :: t)
  | _ => true

/-- A list with the position of each element. -/
def indexed {α : Type} (l : List α) : List (Nat × α) := (List.range l.length).zip l

/-- A check of positions 0 to n - 1, whose error is at the first that fails. -/
def ckEach (n : Nat) (ok : Nat → Bool) (code sec : Nat) (off detail : Nat → Nat) : Check :=
  match (List.range n).find? fun i => !ok i with
  | some i => ck false code sec (off i) (detail i)
  | none => ck true code sec 0 0

/-! ### Header and directory (11 R250, R251) -/

/-- The header checks. -/
def headerChecks (s : State) (img : Bytes) : List Check :=
  let fmt := fld img 24 1
  [ck (fld img 0 4 == 0x47505247 && fld img 4 1 == 1) 0x0101 0 0 0,
   ck (fld img 5 1 == s.fuses.variant.ctorIdx) 0x0102 0 5 0,
   ck (crc32c (img.take 60) == fld img 60 4) 0x0103 0 60 0,
   ck (zeroBytes img 26 2) 0x0107 0 26 0,
   ck (zeroBytes img 40 20) 0x0107 0 40 0,
   ck (bits fmt 3 1 ≤ 4 && bits fmt 7 4 ≤ 1) 0x0107 0 24 0,
   ck (decide (1 ≤ fld img 25 1) && decide (fld img 25 1 ≤ 128)) 0x0301 0 25 0,
   ck (decide (1 ≤ fld img 16 4) && decide (fld img 16 4 ≤ 4000000000)) 0x0201 0 16 0,
   ck (fld img 8 4 != 0) 0x0108 0 8 0]

/-- The sections that Table 11.3 requires. -/
def requiredSections : List Nat := [1, 2, 4, 8, 9, 11]

/-- The checks of directory entry `i`, against the entries before it. -/
def entryChecks (img : Bytes) (secs : List Section) (i : Nat) (x : Section) : List Check :=
  let e := 64 + 16 * i
  let before := secs.take i
  let apart := fun (y : Section) => y.len == 0 || decide (x.off + x.len ≤ y.off) || decide (y.off + y.len ≤ x.off)
  [ck (zeroBytes img (e + 2) 2) 0x0107 0 (e + 2) 0,
   ck (decide (1 ≤ x.kind) && decide (x.kind ≤ 12)) 0x0107 0 e 0,
   ck (before.all fun y => y.kind != x.kind) 0x0104 0 e 0,
   ck (x.len == 0 || (x.off % 4 == 0 && decide (64 + 16 * fld img 6 2 ≤ x.off) && decide (x.off + x.len ≤ fld img 12 4) &&
       before.all apart)) 0x0104 0 e 0]

/-- The CRC check of a section type. -/
def crcCheck (img : Bytes) (secs : List Section) (kind : Nat) : List Check :=
  match (indexed secs).find? fun x => x.2.kind == kind && x.2.len != 0 with
  | some (i, x) => [ck (crc32c (slice img x.off x.len) == x.crc) 0x0105 kind (76 + 16 * i) 0]
  | none => []

/-- The directory checks and the section CRCs. -/
def directoryChecks (img : Bytes) : List Check :=
  let n := fld img 6 2
  let secs := imageSections img
  ck (decide (1 ≤ n) && decide (n ≤ 16) && decide (64 + 16 * n ≤ fld img 12 4)) 0x0104 0 6 0 ::
  (indexed secs).flatMap (fun x => entryChecks img secs x.1 x.2) ++
  (List.range 12).flatMap fun i => crcCheck img secs (i + 1)

/-! ### MESH and CHANNELISER (06 R127 to R129; 05 R107, R114, R122, R123) -/

/-- The segments that the links of a device must send: every local path in every slice of another owner. -/
def wantedSegments (p : Programme) : List (Nat × Nat) :=
  p.localPaths.flatMap fun q => ((List.range p.slices).filter fun k => p.owners.getD k 0 != p.device).map fun k => (q, k)

/-- The segments that the links of a device must bring: every path of the programme that another device ingests, in every owned
slice (06 R129, R150; log entry 130). -/
def dueSegments (p : Programme) : List (Nat × Nat) :=
  (p.paths.filter fun r => !p.localPaths.contains r.path).flatMap fun r => p.owned.map fun k => (r.path, k)

/-- The place of a segment in the stream order of 06 R130. -/
def segKey (x : Nat × Nat) : Nat := x.2 * 2048 + x.1

/-- Where each link record starts in MESH. -/
def linkOffsets (at' : Nat) : List ProgLink → List Nat
  | [] => []
  | l :: t => at' :: linkOffsets (at' + 8 + 4 * (l.tx.length + l.rx.length)) t

/-- The checks of link `i`, whose record is at image offset `at'`; `sent` and `got` are the segments of the links before it. -/
def linkChecks (s : State) (b : Bytes) (o at' i : Nat) (p : Programme) (sent got : List (Nat × Nat)) (used : List Nat)
    (l : ProgLink) : List Check :=
  let inOrder := fun (segs : List (Nat × Nat)) (j : Nat) =>
    j == 0 || decide (segKey (segs.getD (j - 1) (0, 0)) < segKey (segs.getD j (0, 0)))
  let txOk := fun (x : Nat × Nat) => p.localPaths.contains x.1 && decide (x.2 < p.slices) && p.owners.getD x.2 0 == l.peer &&
    !sent.contains x
  let rxOk := fun (x : Nat × Nat) => decide (x.2 < p.slices) && p.owners.getD x.2 0 == p.device &&
    !p.localPaths.contains x.1 && !got.contains x
  [ck (zeroBytes b (at' - o + 6) 2) 0x0107 1 (at' + 6) i,
   ck (decide (l.hp < halfPortsOf s.fuses.variant)) 0x0109 1 at' i,
   ck (decide (l.peer < p.devices) && l.peer != p.device && !used.contains l.hp) 0x0203 1 at' i,
   ckEach l.tx.length (fun j => txOk (l.tx.getD j (0, 0)) && inOrder l.tx j) 0x0203 1 (fun j => at' + 8 + 4 * j) fun _ => i,
   ckEach l.rx.length (fun j => rxOk (l.rx.getD j (0, 0)) && inOrder l.rx j) 0x0203 1
     (fun j => at' + 8 + 4 * (l.tx.length + j)) fun _ => i]

/-- The checks of the MESH section at offset `o`. -/
def meshChecks (s : State) (b : Bytes) (o : Nat) (p : Programme) : List Check :=
  [ck (zeroBytes b 2 2) 0x0107 1 (o + 2) 0,
   ck (zeroBytes b 10 6) 0x0107 1 (o + 10) 0,
   ck (decide (1 ≤ p.devices) && decide (p.devices ≤ 32) && decide (p.device < p.devices)) 0x0202 1 o 0,
   ck (fld b 4 2 == p.slices) 0x0202 1 (o + 4) 0,
   ckEach p.owners.length (fun i => decide (p.owners.getD i 0 < p.devices)) 0x0202 1 (fun i => o + 16 + i) id,
   ck (rising p.localPaths && p.localPaths.all fun q => decide (q < 2048)) 0x0202 1 (o + meshLocals b) 0,
   ck (decide (1 < p.devices) || p.links.isEmpty) 0x0203 1 (o + 8) 0] ++
  (((linkOffsets (o + meshLinks b) p.links).zip (indexed p.links)).flatMap fun x =>
    let before := p.links.take x.2.1
    linkChecks s b o x.1 x.2.1 p (before.flatMap (·.tx)) (before.flatMap (·.rx)) (before.map (·.hp)) x.2.2) ++
  [ck ((wantedSegments p).all fun x => p.links.any fun l => l.tx.contains x) 0x0203 1 (o + 8) 0,
   ck ((dueSegments p).all fun x => p.links.any fun l => l.rx.contains x) 0x0203 1 (o + 8) 0,
   ck ((linkList b (fld b 8 2) (meshLinks b)).2 == b.length) 0x0202 1 o 0]

/-- Whether shift fields of stages at or beyond the number of stages are 0 (05 R122). -/
def shiftsOk (shifts size : Nat) : Bool := shifts / 4 ^ Nat.log2 size == 0

/-- The limit on the correlated rate per path, in complex samples per second over the owned slices: 56, 112 or 224 MS/s by
precision, and on a GL-1024 half of it above 1,024 paths (01 R18 Table 1.3; log entry 128). -/
def correlatedRate (v : Variant) (p : Programme) : Nat :=
  56000000 * 2 ^ p.precision / (match v with | .gl1024 => if 1024 < p.pathCount then 2 else 1 | .gl2048 => 1)

/-- The checks of the CHANNELISER section at offset `o`; `om` is the offset of MESH. The rates per path of 01 Table 1.3 answer as
CH_RATE, a complex path counted twice as under 05 R107 (log entry 128). -/
def channelChecks (s : State) (b : Bytes) (o om : Nat) (p : Programme) : List Check :=
  let coef := fun (x : Int) => decide (-131072 ≤ x) && decide (x ≤ 131071)
  let oB := 32 + 4 * p.hA.length
  let oP := oB + 4 * p.hB.length
  [ck (zeroBytes b 23 1) 0x0107 2 (o + 23) 0,
   ck (zeroBytes b 26 6) 0x0107 2 (o + 26) 0,
   ck (isPow2 p.slices && decide (p.slices ≤ 256)) 0x0301 2 o 0,
   ck (decide (1 ≤ p.pA) && decide (p.pA ≤ 16)) 0x0301 2 (o + 2) 0,
   ck (decide (p.prototype ≤ 1)) 0x0301 2 (o + 3) 0,
   ck (isPow2 p.c && decide (p.c ≤ 4096)) 0x0301 2 (o + 6) 0,
   ck (decide (p.binBase < p.f)) 0x0301 2 (o + 4) 0,
   ck (decide (1 ≤ p.pB) && decide (p.pB ≤ 16)) 0x0301 2 (o + 20) 0,
   ck (decide (p.precision ≤ 2)) 0x0301 2 (o + 21) 0,
   ck (decide (8 ≤ p.dcShift) && decide (p.dcShift ≤ 24)) 0x0301 2 (o + 22) 0,
   ck (p.paths.length == p.pathCount) 0x0301 2 (o + 24) 0,
   ck (oP + 16 * p.paths.length == b.length) 0x0301 2 o 0,
   ck (shiftsOk p.slShift p.f) 0x0302 2 (o + 8) 0,
   ck (shiftsOk p.fbShift p.c) 0x0302 2 (o + 12) 0,
   ckEach p.hA.length (fun i => coef (p.hA.getD i 0)) 0x0301 2 (fun i => o + 32 + 4 * i) fun _ => 0,
   ckEach p.hB.length (fun i => coef (p.hB.getD i 0)) 0x0301 2 (fun i => o + oB + 4 * i) fun _ => 0] ++
  ((indexed p.paths).flatMap fun x =>
    let at' := oP + 16 * x.1
    let r := x.2
    [ck (bits (fld b (at' + 2) 1) 7 2 == 0 && zeroBytes b (at' + 15) 1) 0x0107 2 (o + at' + 2) x.1,
     ck (decide (r.path < 2048) && (p.paths.take x.1).all (fun y => decide (y.path < r.path)) && decide (r.slFirShift ≤ 31) &&
         decide (r.slReqShift ≤ 23) && decide (r.fbFirShift ≤ 31) && decide (r.fbReqShift ≤ 23)) 0x0301 2 (o + at') x.1]) ++
  [ck (p.localPaths.all fun q => p.paths.any fun r => r.path == q) 0x0202 1 (om + 6) 0,
   ck (p.hA.reverse == p.hA) 0x0303 2 (o + 32) 0,
   ck (p.prototype == 1 || p.hB.reverse == p.hB) 0x0303 2 (o + oB) 0,
   ck (p.prototype == 1 || p.groupDelay == (p.pB * p.c - 1) * 2 ^ 15) 0x0304 2 (o + 16) 0,
   ck (decide (p.fsHz * p.localPaths.length * (3 - p.r) ≤ 229376000000) &&
       decide (p.pathCount * p.owned.length * p.fsHz ≤ 131072000000 * p.f)) 0x0305 2 o 0,
   ck (decide (p.fsHz * (3 - p.r) ≤ 3584000000) &&
       (p.corr.isNone || decide (p.owned.length * p.fsHz ≤ correlatedRate s.fuses.variant p * p.f))) 0x0305 2 o 0]

/-! ### DELAY, MEMORY and CORRELATION (05 R116; 07 R157 to R159, R163, R169; 09 R219, R223; 11 R254, R255) -/

/-- The checks of the DELAY section, or of a segment. -/
def delayChecks (b : Bytes) (o : Nat) (p : Programme) : List Check :=
  let n := fld b 8 4 * fld b 12 2 * fld b 14 2
  [ck (fld b 12 2 == p.owned.length && fld b 14 2 == p.pathCount && b.length == 16 + 32 * n) 0x0401 3 (o + 12) 0,
   ckEach n (fun i => bits (fld b (36 + 32 * i) 2) 15 2 == 0 && zeroBytes b (38 + 32 * i) 10) 0x0107 3
     (fun i => o + 36 + 32 * i) id]

/-- The size of a ring or map region that R159 or R163 gives, rounded up to 32 KiB. -/
def regionSize (s : State) (p : Programme) (r : ProgRegion) : Nat :=
  let depth := fun k => match p.region k with | some x => x.depth | none => 0
  match r.kind with
  | 1 => up32k (p.pathCount * p.ringChannels * r.depth * 256 * p.z)
  | 2 => up32k (depth 1 * p.pathCount * p.owned.length * rowBytes p.c)
  | 5 => up32k (captureRingSize p (s.eff 0x0707) (s.eff 0x0709) r.depth)
  | 6 => up32k (depth 5 * s.eff 0x0709 * rowBytes (s.eff 0x0707))
  | _ => r.size

/-- The checks of the MEMORY section at offset `o`. The rings and maps of both kinds have the sizes of R159 and R163, those of the
capture against the range's settings (07 R158, R166); an absent corner-turn region has size 0. -/
def memoryChecks (s : State) (b : Bytes) (o : Nat) (p : Programme) : List Check :=
  let live := (indexed p.regions).filter fun x => x.2.size != 0
  let at' := fun i => o + 16 + 24 * i
  let cap := hbmCapacity s.fuses.variant - 512 * 2 ^ 20
  let apart := fun (x y : ProgRegion) => decide (x.base + x.size ≤ y.base) || decide (y.base + y.size ≤ x.base)
  [ck (zeroBytes b 12 4) 0x0107 4 (o + 12) 0,
   ck (decide (p.regions.length ≤ 64)) 0x0107 4 o 0,
   ck (p.shares.getD 4 0 == 0) 0x0107 4 (o + 10) 0] ++
  (live.flatMap fun x =>
    [ck (decide (1 ≤ x.2.kind) && decide (x.2.kind ≤ 7) && zeroBytes b (17 + 24 * x.1) 1 &&
        (x.2.kind == 1 || x.2.kind == 5 || x.2.depth == 0) && (x.2.kind == 1 || x.2.reach == 0)) 0x0107 4 (at' x.1) x.1,
     ck (x.2.base % 32768 == 0 && x.2.size % 32768 == 0 && x.2.reach % 256 == 0) 0x0504 4 (at' x.1 + 8) x.1]) ++
  (live.map fun x =>
    ck (live.all fun y => !decide (y.1 < x.1) || apart x.2 y.2) 0x0501 4 (at' x.1) x.1) ++
  (live.map fun x => ck (decide (x.2.base + x.2.size ≤ cap)) 0x0502 4 (at' x.1 + 8) x.1) ++
  (live.map fun x => ck (x.2.kind == 7 || !(live.any fun y => decide (y.1 < x.1) && y.2.kind == x.2.kind)) 0x0503 4 (at' x.1) x.1) ++
  ([1, 2, 5, 6].map fun k => match live.find? fun x => x.2.kind == k with
    | some x => ck (x.2.size == regionSize s p x.2) 0x0504 4 (at' x.1 + 16) x.1
    | none => ck (decide (2 < k) || p.pathCount * p.ringChannels == 0) 0x0504 4 o k) ++
  [ck (decide (shareTotal p (s.eff 0x0704) (s.eff 0x070A) ≤ 256)) 0x0506 4 (o + 2) 0]

/-- The checks of the CORRELATION section at offset `o`. -/
def corrChecks (s : State) (b : Bytes) (o : Nat) (p : Programme) (c : ProgCorr) : List Check :=
  let tiles := p.groups * (p.groups + 1) / 2
  let at' := 16 + pad4 (2 * c.cuts.length)
  [ck (zeroBytes b 10 6) 0x0107 5 (o + 10) 0,
   ck (bits (fld b 6 2) 15 1 == 0) 0x0107 5 (o + 6) 0,
   ck (decide (1 ≤ c.nInt) && isPow2 c.k && decide (16 ≤ c.k) && decide (c.k ≤ 4096) && decide (c.format ≤ 2) &&
       (c.cuts.isEmpty || c.cuts.length + 1 == c.nInt)) 0x0601 5 o 0,
   ck (p.n % c.k == 0) 0x0201 5 (o + 2) 0,
   ck (decide (p.n * c.nInt < 2 ^ 32)) 0x0602 5 o 0,
   ck (pad4 (at' + 2 * tiles) == pad4 b.length) 0x0603 5 (o + at') 0,
   ckEach tiles (fun t => let e := c.placement.getD t 0xFFFF; e == 0xFFFF || decide (e < enginesOf s.fuses.variant)) 0x0109 5
     (fun t => o + at' + 2 * t) id]

/-! ### BEAMS and STREAMS (10 R229; 11 R256, R257) -/

/-- Whether a range lies inside a present region of a kind. -/
def insideRegion (p : Programme) (kind base n : Nat) : Bool :=
  p.regions.any fun r => r.kind == kind && r.size != 0 && decide (r.base ≤ base) && decide (base + n ≤ r.base + r.size)

/-- Whether the records of one packet fit a payload (10 R229). -/
def beamFits (b : BeamSet) (limit : Nat) : Bool :=
  (!bit b.output 0 || decide (b.m * b.q * 2 ≤ limit)) && (!bit b.output 1 || decide (b.q * b.powerSize ≤ limit))

/-- The bytes of a staging buffer. -/
def BeamSet.stageBytes (b : BeamSet) (n : Nat) : Nat :=
  b.voltageBytes n + if bit b.output 1 then b.powerBeams * b.chCount * (n / max 1 b.pInt) * b.powerSize else 0

/-- The rules of one beam set but those of its buffers (10 R229, Table 10.1). -/
def beamOk (p : Programme) (b : BeamSet) : Bool :=
  decide (b.set ≤ 15) && decide (1 ≤ b.output) && decide (b.output ≤ 3) && decide (b.beams ≤ 1024) &&
  decide (b.beamBase + b.beams ≤ 1024) && decide (b.powerFmt ≤ 1) && decide (-64 ≤ b.scale) && decide (b.scale ≤ 64) &&
  decide (-64 ≤ b.vShift) && decide (b.vShift ≤ 64) && decide (b.minPaths ≤ 2048) && decide (1 ≤ b.chCount) &&
  decide (b.chFirst + b.chCount ≤ p.ringChannels) && decide (1 ≤ b.groups) && decide (b.groups ≤ 128) &&
  b.order.all (fun g => decide (g < 128)) && allDiffer b.order && (bit b.output 0 || decide (b.vStream < p.streams.length)) &&
  (bit b.output 1 || decide (b.pStream < p.streams.length)) && decide (1 ≤ b.m) && p.n % max 1 b.m == 0 && decide (1 ≤ b.q) && decide (b.q ≤ b.chCount) && b.chCount % max 1 b.q == 0 && b.pInt != 0 && b.pInt % 16 == 0 &&
  p.n % max 1 b.pInt == 0 && !(b.powerFmt == 1 && b.beams % 2 == 1) && decide (b.finishCh ≤ 60)

/-- Whether the buffers of a beam set lie in regions of their kinds (10 Table 10.1, R230). -/
def beamBuffersOk (p : Programme) (b : BeamSet) : Bool :=
  insideRegion p 4 b.weightBase0 (16 + b.weightSize) && insideRegion p 4 b.weightBase1 (16 + b.weightSize) &&
  insideRegion p 7 b.stageBase0 (b.stageBytes p.n) && insideRegion p 7 b.stageBase1 (b.stageBytes p.n)

/-- The checks of the BEAMS section at offset `o`. -/
def beamChecks (b : Bytes) (o : Nat) (p : Programme) : List Check :=
  let live := (indexed p.beams).filter fun x => x.2.beams != 0
  let at' := fun i => o + 16 + 192 * i
  [ck (zeroBytes b 1 15) 0x0107 6 (o + 1) 0,
   ck (decide (p.beams.length ≤ 16) && b.length == 16 + 192 * p.beams.length) 0x0701 6 o 0] ++
  (live.flatMap fun x =>
    [ck (bits x.2.output 7 2 == 0 && zeroBytes b (38 + 192 * x.1) 2 && zeroBytes b (44 + 192 * x.1) 4 &&
         zeroBytes b (80 + 192 * x.1 + x.2.groups) (128 - x.2.groups)) 0x0107 6 (at' x.1) x.2.set,
     ck (beamOk p x.2 && (live.all fun y => !decide (y.1 < x.1) || y.2.set != x.2.set)) 0x0701 6 (at' x.1) x.2.set,
     ck (beamBuffersOk p x.2) 0x0701 6 (at' x.1 + 32) x.2.set]) ++
  [ck (decide ((live.map (·.2.beams)).foldl (· + ·) 0 ≤ 1024)) 0x0701 6 o 0] ++
  live.map fun x => ck (live.all fun y => !decide (y.1 < x.1) || decide (x.2.beamBase + x.2.beams ≤ y.2.beamBase) ||
     decide (y.2.beamBase + y.2.beams ≤ x.2.beamBase)) 0x0701 6 o x.2.set

/-- The checks of the STREAMS section at offset `o`. -/
def streamChecks (s : State) (b : Bytes) (o : Nat) (p : Programme) : List Check :=
  ck (b.length % 24 == 0 && decide (p.streams.length ≤ 64)) 0x0801 7 o 0 ::
  ((indexed p.streams).flatMap fun x =>
    [ck (zeroBytes b (24 * x.1 + 18) 6) 0x0107 7 (o + 24 * x.1 + 18) x.1,
     ck (decide (x.2.hp < halfPortsOf s.fuses.variant)) 0x0109 7 (o + 24 * x.1) x.1,
     ck (decide (x.2.dscp ≤ 63)) 0x0801 7 (o + 24 * x.1 + 1) x.1])

/-! ### CODE (08 R193, R196, R198 to R200; 10 R235, R238) -/

/-- The checks of the CODE section at offset `o`. -/
def codeChecks (s : State) (b : Bytes) (o : Nat) (p : Programme) : List Check :=
  let (es, ok) := codeList b.length b 0
  ck ok 0x0104 8 o 0 ::
  (indexed es).flatMap fun z =>
    let x := z.2
    let c := x.2
    let at' := o + x.1
    let word := fun i => at' + 16 + 4 * i
    let view := codeView p c
    let t := knownTab view
    let bad := badBinds p c
    [ck (decide (c.engine < enginesOf s.fuses.variant)) 0x0109 8 at' c.engine,
     ck (zeroBytes b (x.1 + 3) 1) 0x0107 8 (at' + 3) c.engine,
     ck (zeroBytes b (x.1 + 8) 8) 0x0107 8 (at' + 8) c.engine,
     ck (decide (c.code.length ≤ 4096) && decide (c.consts.length ≤ 1024) && decide (c.tables.length ≤ 32) &&
         c.tables.all fun t => t.all fun e => decide (e.1 ≤ 127) && decide (e.2 ≤ 7)) 0x0107 8 at' c.engine,
     ck ((es.take z.1).all fun y => y.2.engine != c.engine) 0x0902 8 at' c.engine,
     ckEach c.code.length (fun i => wordEncodes (c.code.getD i 0)) 0x0901 8 word fun _ => c.engine,
     ckEach c.code.length (structureOk c.code t) 0x0902 8 word fun _ => c.engine,
     ckEach c.code.length (fun i => setcOk c view t i && scaleOk (t.before i) (view.word i)) 0x0903 8 word
       fun _ => c.engine,
     ck (slotOrderOk c.code t) 0x0904 8 at' c.engine,
     ckEach c.code.length (fun i => beamBindOk (t.before i) (view.word i) && !bad.contains i) 0x0905 8 word fun _ => c.engine]

/-! ### READS, TRANSFERS, ACTS and HANDOVER (11 R259 to R261; 12 R280, R283) -/

/-- The checks of the READS section at offset `o`. -/
def readChecks (b : Bytes) (o : Nat) (p : Programme) : List Check :=
  [ck (scheduleList b.length b 0).2 0x0104 9 o 0] ++
  p.schedules.flatMap fun x =>
    let entry := fun i => o + x.1 + 4 + 8 * i
    [ckEach x.2.length (fun i => zeroBytes b (x.1 + 10 + 8 * i) 2) 0x0107 9 (fun i => entry i + 6) fun _ => 0] ++
    (indexed x.2).map fun e =>
      ck (decide (e.2.chFirst + e.2.chCount ≤ p.ringChannels) && decide (1 ≤ e.2.groupCount) &&
        decide (e.2.groupFirst + e.2.groupCount ≤ p.groups)) 0x0A01 9 (entry e.1) 0

/-- The HBM regions that a mode's source and destination may lie in (07 R165; 10 Table 10.1; 12 R283): kinds 1 to 7. -/
def roleRegions (mode : Nat) (write : Bool) : List Nat :=
  match mode with
  | 1 => [3, 7]
  | 2 => [3, 7]
  | 4 => [4]
  | 5 => [7]
  | 6 => [3, 7]
  | _ => if write then [3, 4, 7] else [3, 4, 5, 6, 7]

/-- The descriptors of chain `k`, as NEXT leads through them, at most COUNT of them (12 R283). -/
def chainDescs (p : Programme) (k : Nat) : List Bytes :=
  match p.chains[k]? with
  | some c => (chainFrom c.2 p.descriptors c.1).map fun i => p.descriptors.getD i []
  | none => []

/-- The descriptors of an act's chain. -/
def actDescs (p : Programme) (a : Act) : List Bytes := if a.kind = 3 then chainDescs p a.ref else []

/-- The beam sets whose records a FINISH descriptor may stage: those of the channels on which acts run it, else any. -/
def finishSets (p : Programme) (d : Bytes) : List BeamSet :=
  let live := p.beams.filter fun b => b.beams != 0
  let chs := (p.acts.filter fun a => (actDescs p a).contains d).map (·.dmaCh)
  let mine := live.filter fun b => chs.contains b.finishCh
  if mine.isEmpty then live else mine

/-- Whether the HBM words of a descriptor lie in regions of its role, on even and on odd frames; the staging buffer that a FINISH
writes lies there whole (10 R239, 12 R283). -/
def targetOk (p : Programme) (d : Bytes) : Bool :=
  let fits := fun (write : Bool) (w n : Nat) => wSpace w != 0 ||
    [0, 1].all fun fr => (roleRegions (dMode d) write).any fun k => insideRegion p k (hbmAddress d fr w) n
  fits false (dSrc d) (dLength d + if dMode d = 4 ∧ dCheck d = true then 16 else 0) &&
  (if dMode d = 6 then true
   else if dMode d = 5 then (finishSets p d).isEmpty || (finishSets p d).any fun b => fits true (dDst d) (b.stageBytes p.n)
   else fits true (dDst d) (dLength d))

/-- A chain that reaches END after exactly COUNT descriptors and visits none twice (12 R283). -/
def chainOk (p : Programme) (fuel i : Nat) (seen : List Nat) : Bool :=
  match fuel with
  | 0 => false
  | fuel + 1 =>
    match p.descriptors[i]? with
    | none => false
    | some d => !seen.contains i && (if dEnd d then fuel == 0 else chainOk p fuel (dNext d) (i :: seen))

/-- The checks of the TRANSFERS section at offset `o`. -/
def transferChecks (s : State) (b : Bytes) (o : Nat) (p : Programme) : List Check :=
  [ck (chainCount (b.length + 1) b 0 0).isSome 0x0104 10 o 0] ++
  ((List.range p.descriptors.length).zip p.descriptors).flatMap (fun x =>
    let at' := o + 8 * p.chains.length + 32 * x.1
    let used := dLength x.2 != 0
    [ck (bits (fld x.2 0 1) 7 6 == 0 && bits (fld x.2 1 1) 7 4 == 0 && decide (dMode x.2 ≤ 6) &&
        (!used || reservedClear x.2)) 0x0107 10 at' x.1,
     ck (descOk s.fuses.variant 0 x.2) 0x0A05 10 at' x.1,
     ck (!used || (dMode x.2 != 3 && targetOk p x.2)) 0x0A05 10 at' x.1]) ++
  ((List.range p.chains.length).zip p.chains).map fun x =>
    ck (x.2.2 == 0 || chainOk p x.2.2 x.2.1 []) 0x0A01 10 (o + 8 * x.1) x.1

/-- The checks of the ACTS section at offset `o`. -/
def actChecks (s : State) (b : Bytes) (o : Nat) (p : Programme) : List Check :=
  ck (b.length % 32 == 0) 0x0104 11 o 0 ::
  ((List.range p.acts.length).zip p.acts).flatMap fun x =>
    let a := x.2
    let at' := o + 32 * x.1
    let engines := (List.range a.count).map (a.first + ·)
    let codeHas := fun e => match p.codeOf e with
      | some c => decide (a.entry < c.code.length) && decide (a.subscr < c.tables.length)
      | none => false
    [ck (decide (1 ≤ a.kind) && decide (a.kind ≤ 4) && bits a.flags 7 3 == 0 && decide (a.trigger ≤ 1) &&
        zeroBytes b (32 * x.1 + 18) 14) 0x0107 11 at' x.1,
     ck (a.everyOrbit || (p.corr.isSome && decide (a.phase < p.nInt))) 0x0A01 11 at' x.1,
     ck (match a.kind with
       | 1 => engines.all codeHas && (a.beamSet == 0xFF || p.beams.any fun y => y.set == a.beamSet)
       | 2 => p.schedules.any fun q => q.1 == a.ref
       | 3 => decide (a.ref < p.chains.length) && decide (a.dmaCh ≤ 60)
       | _ => decide (a.first + a.count ≤ p.handovers.length) && decide (a.dmaCh ≤ 60)) 0x0A01 11 at' x.1,
     ck (a.kind != 1 || decide (a.first + a.count ≤ enginesOf s.fuses.variant)) 0x0109 11 at' x.1]

/-- The checks of the HANDOVER section at offset `o`. -/
def handoverChecks (s : State) (b : Bytes) (o : Nat) (p : Programme) : List Check :=
  let v := enginesOf s.fuses.variant
  ck (b.length % 8 == 0) 0x0104 12 o 0 ::
  (indexed p.handovers).flatMap fun x =>
    [ck (decide (x.2.srcEngine < v) && decide (x.2.dstEngine < v)) 0x0109 12 (o + 8 * x.1) x.2.tile,
     ck (decide (x.2.tile < p.groups * (p.groups + 1) / 2) && decide (x.2.srcSlot < 42) && decide (x.2.dstSlot < 42))
       0x0A01 12 (o + 8 * x.1) x.2.tile,
     ck ((p.handovers.take x.1).all fun y => y.tile != x.2.tile) 0x0B03 12 (o + 8 * x.1) x.2.tile]

/-! ### Checks that span sections (02 R34; 06 R150; 07 R162, R168; 08 R187, R193; 10 R241; 11 R266, R273) -/

/-- The finisher cycles of a cluster in a phase (10 R241). -/
def finisherCycles (p : Programme) (phase cluster : Nat) : Nat :=
  16 * sumOf (fun a => ((actDescs p a).filter fun d => dMode d == 5 && wEngine (dSrc d) / 16 == cluster).length) (actsAt p phase)

/-- The groups that an engine subscribes to in a phase. -/
def groupsOf (p : Programme) (phase : Nat) (c : ProgCode) : List Nat :=
  ((engineActs (actsAt p phase) c.engine).flatMap fun a => (c.tables.getD a.subscr []).map (·.1)).eraseDups

/-- Blocks per orbit that the reader sends of each group of a list, in a phase. -/
def blocksOf (p : Programme) (phase : Nat) (groups : Nat → Bool) : Nat :=
  sumOf (fun a => if a.kind = 2 then
      (match p.schedules.find? fun q => q.1 == a.ref with
       | some q => sumOf (fun e => e.chCount * (p.n / 256) *
           ((List.range e.groupCount).filter fun g => groups (e.groupFirst + g)).length) q.2
       | none => 0) else 0) (actsAt p phase)

/-- Whether a number of bytes per orbit stays within `num / 100` of a rate in bytes per core cycle (07 R168, 08 R187). -/
def withinRate (p : Programme) (bytes rate num : Nat) : Bool := decide (bytes * p.fsHz * 100 ≤ num * rate * 10 ^ 9 * p.t)

/-- Bytes of a Carousel block. -/
def blockBytes (p : Programme) : Nat := 256 / p.spw * 64

/-- The Carousel load of a phase: root, branches and engine ports (08 R187). -/
def carouselOk (p : Programme) (phase : Nat) : Bool :=
  let load := fun f => blocksOf p phase f * blockBytes p
  let clusters := (p.codes.map fun c => c.engine / 16).eraseDups
  withinRate p (load fun _ => true) 512 95 &&
  (clusters.all fun k =>
    withinRate p (load fun g => (p.codes.filter fun c => c.engine / 16 == k).any fun c => (groupsOf p phase c).contains g) 128 95) &&
  p.codes.all fun c => withinRate p (load fun g => (groupsOf p phase c).contains g) 64 95

/-- Bytes that a descriptor reads from HBM: a weight stream under CHECK also reads its header (12 R288). -/
def descReads (d : Bytes) : Nat :=
  if wSpace (dSrc d) = 0 ∧ dLength d ≠ 0 then dLength d + (if dMode d = 4 ∧ dCheck d = true then 16 else 0) else 0

/-- Bytes that a finish of a set writes: 256 voltages, and its part of 16 samples of each power interval (10 R237, R238). -/
def finishBytes (b : BeamSet) : Nat :=
  (if bit b.output 0 then 512 else 0) + (if bit b.output 1 then ceilDiv (16 * (if b.powerFmt = 1 then 128 else 64)) (max 1 b.pInt) else 0)

/-- Bytes that a descriptor of a chain on channel `ch` writes to HBM; a FINISH writes what the set of its finish channel stages, the
largest if several share it. -/
def descWrites (p : Programme) (ch : Nat) (d : Bytes) : Nat :=
  if dMode d = 6 ∨ dLength d = 0 then 0
  else if dMode d = 5 then ((p.beams.filter fun b => b.beams != 0 && b.finishCh == ch).map finishBytes).foldl max 0
  else if wSpace (dDst d) = 0 then dLength d else 0

/-- The demand of ports 0 to 5 in a phase; capture is planned where the programme has a capture ring (07 R168). -/
def portDemand (s : State) (p : Programme) (phase : Nat) : List Nat :=
  let ring := p.pathCount * p.ringChannels * p.n * p.z
  let acts := actsAt p phase
  [ring, ring, sumOf (fun a => sumOf (descWrites p a.dmaCh) (actDescs p a)) acts, sumOf descReads (acts.flatMap (actDescs p)), 0,
   if (p.region 5).isSome then s.eff 0x0709 * s.eff 0x0707 * p.n * p.z else 0]

/-- The peak rate of the HBM in bytes per second (07 R168, Table 7.1). -/
def hbmPeak (v : Variant) : Nat := stacksOf v * 819200000000

/-- The ports' demands against shares and against the whole (07 R168, R169). -/
def bandwidthChecks (s : State) (p : Programme) (o phase : Nat) : List Check :=
  let v := s.fuses.variant
  let d := portDemand s p phase
  let cap := (5, d.getD 5 0, s.eff 0x0704)
  let need := match v with
    | .gl2048 => ((List.range 4).map fun i => (i, d.getD i 0, p.shares.getD i 0)) ++ [cap]
    | .gl1024 => [(0, d.getD 0 0, p.shares.getD 0 0), (1, d.getD 1 0, p.shares.getD 1 0),
                  (2, d.getD 2 0 + d.getD 3 0, p.shares.getD 2 0 + p.shares.getD 3 0), cap]
  let off := fun i => if i < 5 then o + 2 + 2 * i else o
  (need.map fun x => ck (x.2.1 == 0 || x.2.2 != 0) 0x0507 0 (off x.1) x.1) ++
  (need.map fun x => ck (decide (x.2.1 * p.fsHz * 256 ≤ x.2.2 * hbmPeak v * p.t)) 0x0508 0 (off x.1) x.1) ++
  [ck (decide (sumOf id d * p.fsHz * 100 ≤ 93 * hbmPeak v * p.t)) 0x0509 0 o 0]

/-- Blocks that a link sends per orbit (06 R150). -/
def linkBlocks (p : Programme) (l : ProgLink) : Nat :=
  let seg := 3 * p.n * p.c
  let frames := (seg + 2047) / 2048
  let last := seg - (frames - 1) * 2048
  l.tx.length * ((frames - 1) * 259 + 1 + (12 + last + 7) / 8) + 5

/-- The load of a link is at most 0.95 (06 R150). -/
def linkLoadOk (s : State) (p : Programme) (l : ProgLink) : Bool :=
  let cfg := s.hpConfig l.hp
  let rate := if cfgRate cfg = 1 then 10312500000 else 25781250000
  let lanes := if cfgMode cfg = 5 then 8 else 4
  decide (linkBlocks p l * 66 * 32 * p.fsHz * 100 ≤ 95 * lanes * rate * 31 * p.t)

/-- Whether a link's half-port suits it, beside the links before it: a full port is one link (06 R129, Table 6.3; log entry 130). -/
def linkModeOk (s : State) (before : List ProgLink) (l : ProgLink) : Bool :=
  let cfg := s.hpConfig l.hp
  let pair := partnerOf l.hp
  decide (cfgRate cfg ≤ 1) &&
    (cfgMode cfg == 4 || (cfgMode cfg == 5 && cfgMode (s.hpConfig pair) == 5 && before.all fun x => x.hp != pair))

/-- The streams that outputs use: of the correlation, of the beam sets and of STREAM descriptors. -/
def usedStreams (p : Programme) : List Nat :=
  ((match p.corr with | some c => [c.stream] | none => []) ++
   ((p.beams.filter fun b => b.beams != 0).flatMap fun b =>
     (if bit b.output 0 then [b.vStream] else []) ++ if bit b.output 1 then [b.pStream] else []) ++
   ((p.descriptors.filter fun d => dMode d == 6 && dLength d != 0).map dAux)).eraseDups

/-- R162 against the effective margin; the ring region, whose record stands at an offset, is concerned. -/
def ringDepthCheck (s : State) (p : Programme) (o : Nat) : Check :=
  let i := (p.regions.findIdx? fun r => r.kind == 1 && r.size != 0).getD 0
  ck (ringDepthOk p (s.eff 0x0540)) 0x0505 4 (if o = 0 then 0 else o + 16 + 24 * i) i

/-- The half-port modes that links need, now (06 R129). -/
def linkModeChecks (s : State) (p : Programme) (at' : Nat → Nat) : List Check :=
  (indexed p.links).map fun x => ck (linkModeOk s (p.links.take x.1) x.2) 0x0205 1 (at' x.1) x.1

/-- The half-port modes that streams need, now. -/
def streamModeChecks (s : State) (p : Programme) (at' : Nat → Nat) : List Check :=
  (indexed p.streams).map fun x =>
    ck (decide (1 ≤ cfgMode (s.hpConfig x.2.hp)) && decide (cfgMode (s.hpConfig x.2.hp) ≤ 3)) 0x0801 7 (at' x.1) x.1

/-- The packets of the beam sets against EG_PAYLOAD_MAX, now (10 R229). -/
def beamFitChecks (s : State) (p : Programme) (o : Nat) : List Check :=
  (p.beams.filter fun b => b.beams != 0).map fun b => ck (beamFits b (s.eff 0x0308)) 0x0701 6 o b.set

/-- The checks of ARM_PROGRAMME against the half-port modes and EG_PAYLOAD_MAX (11 R267). -/
def portStateChecks (s : State) (p : Programme) : List Check :=
  linkModeChecks s p (fun _ => 0) ++ streamModeChecks s p (fun _ => 0) ++ beamFitChecks s p 0

/-- The ONCE acts of an engine, with its code. -/
def onceActs (p : Programme) (e : Nat) : List Act := (engineActs p.acts e).filter fun a => a.once

/-- Whether the code of an act on an engine has a property of its control flow. -/
def actCode (p : Programme) (e : Nat) (f : CodeView → KnownTab → Bool) : Bool :=
  match p.codeOf e with
  | some c => let view := codeView p c; f view (knownTab view)
  | none => false

/-- Whether a ONCE act of the source releases a slot, and no other ONCE act there issues anything on it (11 R273). -/
def releasedOnce (p : Programme) (e slot : Nat) : Bool :=
  actCode p e fun c t =>
    (onceActs p e).any (fun a => releasesSlot c t a.entry slot) &&
    (onceActs p e).all fun a =>
      let m := walk c t a.entry fun _ x => x
      (List.range c.ws.size).all fun i => (m.getD i []).isEmpty || !usesSlot slot (c.word i)

/-- Whether a ONCE act of the destination acquires a slot with its token, ahead of which no ONCE act there uses it (11 R273). -/
def acquiredOnce (p : Programme) (e slot : Nat) : Bool :=
  actCode p e fun c t =>
    match (onceActs p e).findIdx? fun a => acquiresSlot c t a.entry slot with
    | some k => ((onceActs p e).take k).all fun a =>
        let m := walk c t a.entry fun _ x => x
        (List.range c.ws.size).all fun i => (m.getD i []).isEmpty || !usesSlot slot (c.word i)
    | none => false

/-- Whether transfers keep off a destination slot: those whose records stand ahead of the handover act, and of the later ones, of any
frame, those that start with their act on a channel other than the handover's, so that nothing orders them behind it (11 R273; log
entry 140). -/
def keptOffSlot (p : Programme) (entry : Nat) (h : Handover) : Bool :=
  let off := fun (a : Act) => (actDescs p a).all fun d => !(dSlots d).contains (h.dstEngine, h.dstSlot)
  match p.acts.findIdx? fun a => a.kind == 4 && a.once && decide (a.first ≤ entry) && decide (entry < a.first + a.count) with
  | some k => (p.acts.take k).all off &&
      (p.acts.drop (k + 1)).all fun a => a.trigger == 1 || a.dmaCh == (p.acts.map (·.dmaCh)).getD k 0 || off a
  | none => false

/-- The handover checks of R273. -/
def moveChecks (p : Programme) : List Check :=
  (indexed p.handovers).flatMap fun x =>
    let h := x.2
    [ck (releasedOnce p h.srcEngine h.srcSlot) 0x0B02 0 0 h.tile,
     ck (acquiredOnce p h.dstEngine h.dstSlot && keptOffSlot p x.1 h) 0x0B01 0 0 h.tile,
     ck (match p.corr with | some c => c.placement.getD h.tile 0xFFFF == h.dstEngine | none => true) 0x0B03 0 0 h.tile]

/-- The second rule of R193, for a handover act: the source's code passes on no slot that the act copies, unless another entry hands the
slot a tile, which the engine then acquires (log entry 30). -/
def handoverSlotOk (p : Programme) (a : Act) : Bool :=
  ((p.handovers.drop a.first).take a.count).all fun h =>
    (p.handovers.any fun x => x.dstEngine == h.srcEngine && x.dstSlot == h.srcSlot) ||
    match p.codeOf h.srcEngine with
    | some c =>
      let view := codeView p c
      let t := knownTab view
      (engineActs p.acts h.srcEngine).all fun x => !actPasses view t x.entry h.srcSlot
    | none => true

/-- The second rule of R193, for a transfer and the ENGINE acts of its frame: one that starts with the act names no slot on which the
act's code passes; one that waits for DKICK is not kicked while a slot of its chain on the engine may have a pass in flight (log
entry 30). -/
def transferSlotOk (p : Programme) (a : Act) : Bool :=
  p.codes.all fun c =>
    let slots := ((actDescs p a).flatMap dSlots).filterMap fun e => if e.1 = c.engine then some e.2 else none
    slots.isEmpty ||
    (let view := codeView p c
     let t := knownTab view
     (engineActs p.acts c.engine).all fun x =>
       !(x.once || a.once || x.everyOrbit || a.everyOrbit || x.phase == a.phase) ||
       (if a.trigger = 1 then !kickInFlight view t x.entry a.dmaCh slots else !slots.any (actPasses view t x.entry)))

/-- The second rule of R193 for an act that moves data. -/
def actSlotOk (p : Programme) (a : Act) : Bool :=
  match a.kind with
  | 3 => transferSlotOk p a
  | 4 => handoverSlotOk p a
  | _ => true

/-- The checks that span sections; `om` and `oc` are the offsets of MEMORY and CORRELATION. -/
def crossChecks (s : State) (p : Programme) (om oc : Nat) : List Check :=
  [ck (p.n != 0 && p.n % 256 == 0) 0x0201 0 20 0,
   ck (decide (10 ^ 9 * p.t ≥ 10 ^ 6 * p.fsHz) && decide (10 ^ 3 * p.t ≤ 200 * p.fsHz)) 0x0201 0 20 0] ++
  (indexed p.links).map (fun x => ck (linkLoadOk s p x.2) 0x0204 0 0 x.1) ++
  (usedStreams p).map (fun i => ck (decide (i < p.streams.length)) 0x0801 0 0 i) ++
  [ck (decide (s.eff 0x0540 ≤ p.t)) 0x0C02 0 0 0] ++
  (phasesOf p).flatMap (bandwidthChecks s p om) ++
  (match p.corr with
   | some c =>
     let at' := oc + 16 + pad4 (2 * c.cuts.length)
     [ckEach c.placement.length (fun t => let e := c.placement.getD t 0xFFFF; e == 0xFFFF || (p.codeOf e).isSome) 0x0603 0
        (fun t => at' + 2 * t) id,
      ckEach c.cuts.length (fun i => decide (c.cuts.getD i 0 < p.chains.length)) 0x0A01 0 (fun i => oc + 16 + 2 * i)
        fun i => c.cuts.getD i 0]
   | none => []) ++
  (phasesOf p).flatMap (fun ph => p.codes.map fun c => ck (withinRate p (engineCycles p ph c) 1 96) 0x0A02 0 0 c.engine) ++
  (phasesOf p).flatMap (fun ph => (List.range 32).map fun k => ck (withinRate p (finisherCycles p ph k) 1 95) 0x0A03 0 0 k) ++
  (phasesOf p).map (fun ph => ck (carouselOk p ph) 0x0A04 0 0 0) ++
  p.acts.map (fun a => ck (actSlotOk p a) 0x0904 0 0 0) ++
  moveChecks p

/-! ### The whole validation -/

/-- The offset of a section, 0 where it is absent. -/
def sectionOffset (secs : List Section) (kind : Nat) : Nat := match findSection secs kind with | some x => x.off | none => 0

/-- The checks of a section. -/
def sectionChecks (s : State) (img : Bytes) (secs : List Section) (p : Programme) (kind : Nat) : List Check :=
  match findSection secs kind with
  | none => [ck (!requiredSections.contains kind && (kind != 7 || (usedStreams p).isEmpty)) 0x0106 kind 64 0]
  | some x =>
    let b := slice img x.off x.len
    match kind with
    | 1 => meshChecks s b x.off p ++
        linkModeChecks s p fun i => (linkOffsets (x.off + meshLinks b) p.links).getD i x.off
    | 2 => channelChecks s b x.off (sectionOffset secs 1) p
    | 3 => delayChecks b x.off p
    | 4 => memoryChecks s b x.off p ++ [ringDepthCheck s p x.off]
    | 5 => match p.corr with | some c => corrChecks s b x.off p c | none => []
    | 6 => beamChecks b x.off p ++ beamFitChecks s p x.off
    | 7 => streamChecks s b x.off p ++ streamModeChecks s p fun i => x.off + 24 * i
    | 8 => codeChecks s b x.off p
    | 9 => readChecks b x.off p
    | 10 => transferChecks s b x.off p
    | 11 => actChecks s b x.off p
    | _ => handoverChecks s b x.off p

/-- The outcome of a validation: the programme, or the first failure (11 R266). -/
def validateImage (s : State) (img : Bytes) : Except LoadError Programme :=
  match firstFailure (headerChecks s img) with
  | some e => .error e
  | none => match firstFailure (directoryChecks img) with
    | some e => .error e
    | none =>
      let p := parseImage img
      let secs := imageSections img
      match firstFailure ((List.range 12).flatMap fun i => sectionChecks s img secs p (i + 1)) with
      | some e => .error e
      | none =>
        match firstFailure (crossChecks s p (sectionOffset secs 4) (sectionOffset secs 5)) with
        | some e => .error e
        | none => .ok p

end Sys2Proof.Machine
end

