-- ==== Sys2Proof/Machine/ProgCmds.lean ====
section
/-! DEFINITION. The programme commands: image chunks, delay segments, validation and arming (11_programmes.md R249, R266 to
R269, R272, R277; 13 Table 13.7). -/

namespace Sys2Proof.Machine

/-! ### Received runs -/

/-- Adds a run to disjoint rising runs, joining those that touch. -/
def addRun (a b : Nat) (rs : List (Nat × Nat)) : List (Nat × Nat) :=
  match rs with
  | [] => [(a, b)]
  | (x, y) :: t =>
    if b < x then (a, b) :: (x, y) :: t
    else if y < a then (x, y) :: addRun a b t
    else addRun (min a x) (max b y) t

/-- The bytes that runs cover. -/
def runBytes (rs : List (Nat × Nat)) : Nat := sumOf (fun r => r.2 - r.1) rs

/-- Whether runs cover everything up to `n`. -/
def runsCover (rs : List (Nat × Nat)) (n : Nat) : Bool := n == 0 || rs.any fun r => r.1 == 0 && decide (n ≤ r.2)

/-! ### LOAD_PROGRAMME (11 R249, R277) -/

/-- The largest image. -/
def maxImage : Nat := 134217728

/-- The slots whose image may not be touched. -/
def SlotState.held (x : SlotState) : Bool := x == .armed || x == .inEffect || x == .retiring

/-- The stretches of the HBM that a load goes to, the delay store wrapping (11 R247, R249, R277). -/
def LoadJob.pieces (v : Variant) (storeNext : Nat) : LoadJob → List (Nat × Nat)
  | .image i off data => [(slotBase v i + off, data.length)]
  | .segment _ data =>
    let o := storeNext % delayStoreSize
    let k := min data.length (delayStoreSize - o)
    [(delayStoreBase v + o, k), (delayStoreBase v, data.length - k)].filter fun x => x.2 != 0

/-- The bytes of a load. -/
def LoadJob.data : LoadJob → Bytes
  | .image _ _ d | .segment _ d => d

/-- Channel 62 starts on a load: a chain that the device builds over its data (12 R280; log entry 142). -/
def startLoad (j : LoadJob) (s : State) : State :=
  startChain 62 { gen := 0, frame := 0, act := 0, first := 0, trigger := false, cut := false, data := j.data
                  built := loadChain (s.eff 0x0A01) (j.pieces s.fuses.variant s.prg.storeNext) }
    { s with prg := { s.prg with loading := some j } }

/-- Why no load can reach the HBM now: frozen, off, or DMA_WR without a share (07 R169, R177; log entries 39, 142). -/
def loadRefused (s : State) : Option Status :=
  if s.boot.hbmFailed then some .hwFault
  else if s.hbm.state = 1 then some .frozen
  else if s.hbm.state ≠ 0 then some .badState
  else if s.portShare 2 = some 0 then some .busy
  else none

/-- What a slot has received once a chunk of its image has been written: the runs, and the image's size, if offset 0 has arrived
(11 R249). -/
def chunkReceived (s : State) (i off : Nat) (data : Bytes) : List (Nat × Nat) × Option Nat :=
  let x := s.slot i
  let judged := x.state == .valid || x.state == .invalid
  let got := addRun off (off + data.length) (if judged then [] else x.received)
  let base := slotBase s.fuses.variant i
  (got, if x.state.held then x.imageSize
    else if runsCover got 16 then some (fld ((s.hbmWrite (base + off) (data.take (16 - off))).hbmRead base 16) 12 4)
    else none)

/-- The image form. -/
def loadImage (c : Ctx) (s : State) : Verdict :=
  let i := fld c.p 1 1
  let off := fld c.p 4 4
  let data := c.p.drop 8
  let past := match (chunkReceived s i off data).2 with | some n => decide (n < off + data.length) | none => false
  if 2 < i ∨ fld c.p 2 2 ≠ 0 ∨ maxImage < off + data.length ∨ past = true then .no .badParam
  else if s.boot.hbmFailed then .no .hwFault
  else if (s.slot i).state.held then .no .badState
  else if s.working fun w => w == .validate i then .no .busy
  else match loadRefused s with
    | some st => .no st
    | none => .awaits (startLoad (.image i off data))

/-- A chunk of an image has been written: its slot is LOADING or LOADED (11 R249). -/
def chunkLoaded (i off : Nat) (data : Bytes) (s : State) : State :=
  let x := chunkReceived s i off data
  let full := match x.2 with | some n => runsCover x.1 n | none => false
  let st := if full then SlotState.loaded else SlotState.loading
  endAwaited .ok (be 4 (runBytes x.1) ++ be 1 st.ctorIdx ++ [0, 0, 0])
    (s.onSlot i fun _ => { state := st, received := x.1, imageSize := x.2 })

/-- The bytes that a segment takes. -/
def DelaySegment.bytes (g : DelaySegment) : Nat := 16 + 32 * (g.orbitCount * g.sliceCount * g.pathCount)

/-- The bytes of the delay store from the oldest segment that it holds up to the next one's place (11 R277). -/
def storeUsed (s : State) : Nat :=
  match s.prg.segments.head? with
  | some g => s.prg.storeNext - g.place.getD 0
  | none => 0

/-- The slot that holds a generation, ARMED or IN_EFFECT. -/
def segmentSlot (s : State) (gen : Nat) : Option Nat :=
  (List.range 3).find? fun i => ((s.slot i).state == .armed || (s.slot i).state == .inEffect) && (s.slot i).generation == gen

/-- The first orbit past every segment of a slot's generation, the image's own included. -/
def segmentsPast (x : ProgSlot) : Nat :=
  max x.segPast (match x.prog.bind (·.delay) with | some d => d.firstOrbit + d.orbitCount | none => 0)

/-- The verdict on an assembled segment: a status other than OK rejects it (11 R277). -/
def segmentVerdict (s : State) (gen : Nat) (data : Bytes) : Status :=
  match (segmentSlot s gen).bind fun i => (s.slot i).prog.map fun p => (i, p) with
  | none => .badParam
  | some (i, p) =>
    let g := delaySegment gen 0 data
    if (firstFailure (delayChecks data 0 p)).isSome then .badParam
    else if g.firstOrbit < segmentsPast (s.slot i) then .badParam
    else if delayStoreSize < storeUsed s + g.bytes then .busy
    else .ok

/-- The first orbit that stage B has not begun of the programme that an arriving segment serves: of one that waits ARMED while
none is in effect it has begun none, whatever an earlier run reached (05 R118). -/
def segmentFrom (s : State) (gen : Nat) : Nat :=
  if s.inEffect.isNone && ((segmentSlot s gen).any fun i => (s.slot i).state == .armed) then 0
  else match s.ch.begun with | some n => n + 1 | none => 0

/-- A segment that has been written into the delay store counts; entries of orbits that stage B has begun are ignored and counted (05 R118, 11 R277). -/
def acceptSegment (gen : Nat) (data : Bytes) (s : State) : State :=
  let from' := segmentFrom s gen
  let g := delaySegment gen from' data
  let late := (min from' (g.firstOrbit + g.orbitCount) - g.firstOrbit) * g.sliceCount * g.pathCount
  let s := match segmentSlot s gen with
    | some i => s.onSlot i fun x => { x with segPast := g.firstOrbit + g.orbitCount }
    | none => s
  { s with prg := { s.prg with
      segments := s.prg.segments ++ [{ g with entries := [], place := some s.prg.storeNext }]
      storeNext := s.prg.storeNext + g.bytes, lateSegEntries := satAdd 32 s.prg.lateSegEntries late
      assemblies := s.prg.assemblies.filter fun a => a.generation != gen } }

/-- The reply parameters of the segment form: the bytes received, and the state of the slot that holds the generation. -/
def segmentReply (s : State) (gen received : Nat) : Bytes :=
  be 4 received ++ be 1 (match (List.range 3).find? fun i => (s.slot i).state.held && (s.slot i).generation == gen with
    | some i => (s.slot i).state.ctorIdx
    | none => 0) ++ [0, 0, 0]

/-- A generation's segment is no longer assembled. -/
def dropAssembly (gen : Nat) (s : State) : State :=
  { s with prg := { s.prg with assemblies := s.prg.assemblies.filter fun a => a.generation != gen } }

/-- The segment form: the chunk that completes a segment has it judged, and written where it passes (11 R277). -/
def loadSegment (c : Ctx) (s : State) : Verdict :=
  let gen := fld c.p 4 4
  let off := fld c.p 8 4
  let total := fld c.p 12 4
  let data := c.p.drop 16
  let fresh : SegAssembly := { generation := gen, total := total, received := [], data := [] }
  let a := match s.prg.assemblies.find? fun a => a.generation == gen && a.total == total with | some a => a | none => fresh
  let a := { a with received := addRun off (off + data.length) a.received, data := memWrite 0 a.data off data }
  if fld c.p 1 3 ≠ 0 ∨ c.p.length < 17 ∨ total < off + data.length then .no .badParam
  else if s.boot.hbmFailed then .no .hwFault
  else if runsCover a.received total then
    let whole := memRead 0 a.data 0 total
    match segmentVerdict s gen whole with
    | .ok => match loadRefused s with
      | some st => .no st
      | none => .awaits (startLoad (.segment gen whole))
    | .busy => .no .busy
    | st => .rejectWith st (dropAssembly gen)
  else .done fun s =>
    let s := dropAssembly gen s
    ({ s with prg := { s.prg with assemblies := a :: s.prg.assemblies } }, segmentReply s gen (runBytes a.received))

/-- A whole segment has been written; one whose generation has gone meanwhile is rejected (11 R277). -/
def segmentLoaded (gen : Nat) (data : Bytes) (s : State) : State :=
  if (segmentSlot s gen).isNone then endAwaited .badParam [] (dropAssembly gen s)
  else endAwaited .ok (segmentReply s gen data.length) (acceptSegment gen data s)

/-- Channel 62 has come to the END of its chain: the load is complete, and its command replies (11 R249, R277; 12 R284). -/
def loadEnds (s : State) : State :=
  let t := { s with prg := { s.prg with loading := none } }
  match s.prg.loading with
  | some (.image i off data) => chunkLoaded i off data t
  | some (.segment gen data) => segmentLoaded gen data t
  | none => s

/-- LOAD_PROGRAMME, both forms. -/
def loadProgramme (c : Ctx) (s : State) : Verdict :=
  match fld c.p 0 1 with
  | 0 => loadImage c s
  | 1 => loadSegment c s
  | _ => .no .badParam

/-! ### VALIDATE_PROGRAMME (11 R266) -/

/-- VALIDATE_PROGRAMME: the checks run in the background. A BAD_PARAM of the command's own fields carries no error: ERROR,
SECTION, OFFSET and DETAIL are 0 (13 R304). -/
def validateProgramme (c : Ctx) (s : State) : Verdict :=
  let i := fld c.p 0 1
  if 2 < i ∨ fld c.p 1 3 ≠ 0 then .reject .badParam (List.replicate 12 0)
  else if s.working fun w => w == .validate i then .no .busy
  else if (s.slot i).state ≠ .loaded then .no .badState
  else .later (.validate i) id

/-- The reply fields of an error. -/
def LoadError.bytes (e : LoadError) : Bytes := be 2 e.code ++ be 2 e.sec ++ be 4 e.off ++ be 4 e.detail

/-- The validation of a slot ends: the slot is VALID, or INVALID with its first error; also the final status and reply. -/
def validationDone (i : Nat) (s : State) : State × Status × Bytes :=
  let x := s.slot i
  let img := s.hbmRead (slotBase s.fuses.variant i) (x.imageSize.getD 0)
  match validateImage s img with
  | .ok p =>
    (s.onSlot i fun x => { x with state := .valid, prog := some p, generation := p.generation, error := 0, section_ := 0
                                  offset := 0, detail := 0 }, .ok, List.replicate 12 0)
  | .error e =>
    (s.onSlot i fun x => { x with state := .invalid, prog := none, error := e.code, section_ := e.sec, offset := e.off
                                  detail := e.detail }, .badParam, e.bytes)

/-! ### ARM_PROGRAMME (11 R267 to R269, R272) -/

/-- Whether a new programme continues the integration of the old (11 R269). -/
def continuesOk (old new : Programme) : Bool :=
  match old.corr, new.corr with
  | some a, some b =>
    b.continues && a.nInt == b.nInt && a.k == b.k && old.groups == new.groups && a.format == b.format &&
    old.precision == new.precision && (old.region 3) == (new.region 3) &&
    ((List.range a.placement.length).all fun t =>
      match new.handovers.find? fun h => h.tile == t with
      | some h => h.srcEngine == a.placement.getD t 0xFFFF
      | none => a.placement.getD t 0xFFFF == b.placement.getD t 0xFFFF)
  | _, _ => false

/-- The HBM ranges that a programme's descriptors read, or write, as (first, past the last), on even and on odd frames; a FINISH writes
within the whole staging buffer from its DST on (10 R239). -/
def hbmRanges (p : Programme) (write : Bool) (ds : List Bytes) : List (Nat × Nat) :=
  ds.flatMap fun d =>
    let w := if write then dDst d else dSrc d
    let n := if write ∧ dMode d = 5 then ((p.beams.filter fun b => b.beams != 0).map fun b => b.stageBytes p.n).foldl max 0
      else if write then dLength d else descReads d
    if dLength d = 0 ∨ wSpace w ≠ 0 ∨ (write = true ∧ dMode d = 6) then []
    else [0, 1].map fun fr => (hbmAddress d fr w, hbmAddress d fr w + n)

/-- Whether an old TAIL act reads what the new programme writes, its CUT chains included (11 R272). -/
def tailConflict (old new : Programme) : Bool :=
  let cuts := match new.corr with | some c => c.cuts.flatMap (chainDescs new) | none => []
  let reads := hbmRanges old false ((old.acts.filter fun a => a.tail).flatMap (actDescs old))
  let writes := hbmRanges new true (new.acts.flatMap (actDescs new) ++ cuts)
  reads.any fun r => writes.any fun w => decide (r.1 < w.2) && decide (w.1 < r.2)

/-- The checks of ARM_PROGRAMME for a swap orbit (11 R267). -/
def armChecks (s : State) (p : Programme) (n : Nat) : List Check :=
  let clash := fun (b : ProgRegion) => match s.inEffect with
    | some q => q.regions.any fun a =>
      a != b && a.size != 0 && b.size != 0 && decide (a.base < b.base + b.size) && decide (b.base < a.base + a.size)
    | none => false
  [ck (p.device == s.eff 0x0400) 0x0C01 1 0 0, ck (decide (s.eff 0x0540 ≤ p.t)) 0x0C02 0 0 0] ++
  ((List.range p.regions.length).map fun i => ck (match p.regions[i]? with | some b => !clash b | none => true) 0x0C03 4 0 i) ++
  ringDepthCheck s p 0 :: portStateChecks s p ++
  (match s.inEffect with
   | some old =>
     [ck (decide (old.generation < p.generation)) 0x0C04 0 0 0,
      ck (match s.orb.oldest with | some o => decide (o + 4 ≤ n) | none => true) 0x0C05 0 0 0,
      ck (n % old.nInt == 0 || continuesOk old p) 0x0C06 5 0 0,
      ck (!tailConflict old p) 0x0C07 0 0 0]
   | none => [])

/-- ARM_PROGRAMME. -/
def armProgramme (c : Ctx) (s : State) : Verdict :=
  let i := fld c.p 0 1
  let n := fld c.p 4 8
  if 2 < i ∨ fld c.p 1 3 ≠ 0 then
    .reject .badParam (be 4 (if i ≤ 2 then (s.slot i).generation else 0) ++ List.replicate 12 0)
  else if s.boot.hbmFailed then .no .hwFault
  else match (s.slot i).state, (s.slot i).prog with
    | .valid, some p =>
      if (s.slotIn .armed).isSome then .no .badState
      else match firstFailure (armChecks s p n) with
        | some e => .reject .badParam (be 4 p.generation ++ e.bytes)
        | none => .done fun s =>
          let s := if s.inEffect.isSome then s
            else { s with orb := { s.orb with stampTaken := s.orb.stampTaken.filter fun k => decide (k < n) } }
          (s.onSlot i fun x => { x with state := .armed, swapOrbit := n, payloadMax := s.eff 0x0308, haltOrbit := none
                                        haltDump := false, haltedAtOnce := false, fresh := false, lastFrame := none
                                        endOrbit := none, slip := 0, lateActs := 0 },
           be 4 p.generation ++ List.replicate 12 0)
    | _, _ => .no .badState

end Sys2Proof.Machine
end

