-- ==== Sys2Proof/Machine/DmaBurst.lean ====
section
/-! DEFINITION. DMA bursts: eligibility, arbitration, the rate limiter, what each mode reads and writes, and the egress packets
of drains (12_dma.md R284 to R293; 04_ethernet_and_packets.md R89 to R96; 08 R192, R194; 10 R230, R231, R236, R239, R240). -/

namespace Sys2Proof.Machine

/-! ### Bytes through the control bus (15 R351 to R353) -/

/-- The pieces of `n` bytes from address `a` that cross no 64-byte boundary. -/
def busChunks (fuel a n : Nat) : List (Nat × Nat) :=
  match fuel with
  | 0 => []
  | fuel + 1 =>
    if n = 0 then []
    else
      let k := min n (64 - a % 64)
      (a, k) :: busChunks fuel (a + k) (n - k)

/-- A DMA master reads bytes; a transaction still outstanding at its port completes first. -/
def busReadBytes (m a n : Nat) (s : State) : State × Bytes :=
  (busChunks (n / 64 + 2) a n).foldl (fun (x : State × Bytes) (c : Nat × Nat) =>
    let words := (c.1 + c.2 + 3) / 4 - c.1 / 4
    let s := busRun m false (c.1 / 4 * 4 % 2 ^ 32) (List.replicate words (0, 0)) (busBeats m 16 x.1)
    (s, x.2 ++ slice ((tget s.bus.readData m []).flatMap (be 4)) (c.1 % 4) c.2)) (s, [])

/-- A DMA master writes bytes, with the strobes of the bytes that each word takes. -/
def busWriteBytes (m a : Nat) (bs : Bytes) (s : State) : State :=
  (busChunks (bs.length / 64 + 2) a bs.length).foldl (fun s (c : Nat × Nat) =>
    let words := (c.1 + c.2 + 3) / 4 - c.1 / 4
    let piece := slice bs (c.1 - a) c.2
    let data := (List.range words).map fun w =>
      let on := fun (i : Nat) => decide (c.1 % 4 ≤ 4 * w + i) && decide (4 * w + i < c.1 % 4 + c.2)
      ((List.range 4).foldl (fun t i => t + 2 ^ i * b2n (on i)) 0,
       ofBe ((List.range 4).map fun i => if on i then piece.getD (4 * w + i - c.1 % 4) 0 else 0))
    busRun m true (c.1 / 4 * 4 % 2 ^ 32) data (busBeats m 16 s)) s

/-- The master of the write engine (15 R350). -/
def dmaWriter (v : Variant) : Nat := match v with | .gl2048 => 3 | .gl1024 => 2

/-! ### What a burst moves (12 Table 12.3, R289) -/

/-- Whether descriptor `i` is the last of its chain that sends on its stream a packet of the same content (12 R289; 04 Table 4.10;
DESIGN CHOICE, log entry 158). -/
def lastOnStream (p : Programme) (st : DmaStart) (i : Nat) (d : Bytes) : Bool :=
  ((chainFrom p.descriptors.length p.descriptors st.first).filter fun k => match p.descriptors[k]? with
    | some e => dMode e == 6 && dLength e != 0 && dAux e == dAux d && seedKind e % 16 == seedKind d % 16
    | none => false).getLast? == some i

/-! ### Packets (04 R89 to R95; 10 R239, R240) -/

/-- The flags that every packet of a drain shares: DEADLINE, CUT_SHORT and LAST (04 Table 4.10). -/
def drainFlags (s : State) (st : DmaStart) (first count : Nat) (last : Bool) : Nat :=
  4 * b2n (deadlineIn s first count) + 8 * b2n st.cut + 16 * b2n last

/-- A visibility packet of the records that a burst read (04 R90, R93, R94). -/
def visPacket (s : State) (p : Programme) (st : DmaStart) (d : Bytes) (read : Nat) (data : Bytes) (last damaged : Bool) : Bytes :=
  let format := seedKind d / 16
  let per := max 1 p.channelRecords
  let at' := seedRecord d + read / 12
  let k := drainOrbit p st / p.nInt
  let rs := recsOf data
  let marks := rs.map (visFlags format)
  egressHeader s
    { kind := seedKind d, generation := p.generation, orbit := k * p.nInt
      dependent := be 4 k ++ be 3 (seedChannel d + at' / per) ++ be 3 (at' % per) ++ be 2 rs.length
      flags := b2n (marks.any fun m => m.1) + 2 * b2n (damaged || marks.any fun m => m.2) +
        drainFlags s st (k * p.nInt) p.nInt last + 32 * b2n (format != 0) } ++ rs.flatMap (visRecord format)

/-- A beam packet of the records at its places, with the M of its seed and the set's channels (04 R91, R94; 10 R240; 12 R289).
FORMAT_LOSSY is never set (DESIGN CHOICE, log entry 160). -/
def beamPacket (s : State) (p : Programme) (st : DmaStart) (d : Bytes) (pk : DrainPacket) (q : Nat) (missing : Tab Nat)
    (data : Bytes) (last damaged : Bool) : Bytes :=
  let n := drainOrbit p st
  let volts := seedKind d % 16 == 2
  let marks := if volts then voltageFlags missing pk.places else powerFlags data
  egressHeader s
    { kind := seedKind d, generation := p.generation, orbit := n
      dependent := be 4 pk.sample ++ be 3 (seedChannel d + pk.ch) ++ be 2 (seedRecord d / 256 + pk.beam) ++
        be 1 (if volts then seedRecord d % 256 else 0) ++ be 2 q
      flags := (marks ||| 2 * b2n damaged) + drainFlags s st n 1 last } ++ data

/-- Places of one size, joined where they follow one another. -/
def joinPlaces (size : Nat) : List Nat → List (Nat × Nat)
  | [] => []
  | a :: rest => match joinPlaces size rest with
    | (b, n) :: t => if a + size = b then (a, size + n) :: t else (a, size) :: (b, n) :: t
    | [] => [(a, size)]

/-- The bytes at places in the HBM, as the read port delivers them, and whether a granule of them was bad (07 R170, R178). -/
def gather (places : List Nat) (size : Nat) (s : State) : State × Bytes × Bool :=
  let (s, hit) := places.foldl (fun (y : State × Bool) a =>
    let (s, h) := takeBad 3 a size y.1
    (s, y.2 || h)) (s.access 3 false (joinPlaces size places), false)
  (s, places.flatMap fun a => s.hbmRead a size, hit)

/-- Bytes of a slot as a burst reads them; a scratchpad word may fail parity in a bit (09 R226). -/
def slotBytes (src off n : Nat) (bad : Option Nat) (s : State) : State × Bytes :=
  let e := wEngine src
  let i := wSlot src
  let s := match bad with
    | some b => poisonSlot e i (locBit .S e b) (engCount e 11 1 s)
    | none => s
  (s, slice ((s.eng e).slot i).bytes off n)

/-- Sends packet `i` of a dump, or discards it where the half-port is not UP. Also says what it took and whether it was damaged
(07 R167; 04 R96). -/
def dumpPacket (j : DumpJob) (i : Nat) (s : State) : State × Nat × Bool :=
  let ps := j.packets
  match ps[i]? with
  | none => (s, 0, false)
  | some x =>
    let (s, data, bad) := gather ((List.range x.count).map (dumpAddress j.layout x)) j.layout.z s
    let packet := egressHeader s
      { kind := captureKind, generation := j.layout.gen, orbit := x.orbit
        dependent := be 4 x.first ++ be 3 x.kappa ++ be 2 x.path ++ [0] ++ be 2 x.count
        flags := 2 * b2n bad + 16 * b2n (i + 1 == ps.length) } ++ data
    let up := s.ethUp j.hp
    let s := if up then
        sendUdp j.hp (fld j.dest 0 6) none 0 (fld j.dest 6 4) (fld j.dest 10 2) (fld j.dest 12 2) packet s
      else raise 986 s
    ({ s with cap := { s.cap with dump := some { j with next := i + 1, sent := j.sent + b2n up } } }, data.length, bad)

/-- Sends a visibility packet of a STREAM burst. Also says how many source bytes it took, its payload and whether it was
damaged (04 R90). -/
def visBurst (p : Programme) (st : DmaStart) (x : DmaChannel) (d : Bytes) (bad : Option Nat) (s : State) :
    State × Nat × Nat × Bool :=
  let n := burstBytes s x d
  let last := lastOnStream p st x.current d && x.readBytes + n == dLength d
  let src := dSrc d
  let (s, data, damaged) :=
    if wSpace src = 2 then
      let (s, data) := slotBytes src x.readBytes n bad s
      (s, data, false)
    else gather [hbmAddress d st.frame src + x.readBytes] n s
  let packet := visPacket s p st d x.readBytes data last damaged
  ((sendEgress p (dAux d) packet s).1, n, packet.length - 40, damaged)

/-- The bytes of a beam packet: gathered from their places in the HBM, or, from a slot, as they follow one another there (12 R289;
DESIGN CHOICE, log entry 141). -/
def beamSource (x : DmaChannel) (d : Bytes) (pk : DrainPacket) (n : Nat) (bad : Option Nat) (s : State) : State × Bytes × Bool :=
  if wSpace (dSrc d) = 2 then
    let (s, data) := slotBytes (dSrc d) x.readBytes n bad s
    (s, data, false)
  else gather pk.places pk.size s

/-- Sends a beam packet of a STREAM burst of a set's records; LAST marks the set's last packet of the orbit on the stream
(04 R91; 10 R239, R240). -/
def beamBurst (p : Programme) (b : BeamSet) (st : DmaStart) (x : DmaChannel) (d : Bytes) (bad : Option Nat) (s : State) :
    State × Nat × Nat × Bool :=
  let n := burstBytes s x d
  let src := hbmAddress d st.frame (dSrc d)
  let i := x.readBytes / max 1 (beamPacketBytes d b)
  let volts := seedKind d % 16 == 2
  let pk := if volts then voltagePacket p b src i else powerPacket p b src i
  let (s, data, hit) := beamSource x d pk n bad s
  let o := drainOrbit p st
  let due := b.packetsOn p.n (dAux d)
  let due := if due = 0 then (if volts then b.voltagePackets p.n else b.powerPackets p.n) else due
  let last := tget (s.beam b.set).sent (64 * o + dAux d) 0 + 1 == due
  let (s, sent) := sendEgress p (dAux d) (beamPacket s p st d pk b.q (s.beam b.set).marks data last hit) s
  let s := s.onBeam b.set fun y => y.note o (dAux d)
  (if sent then beamCount b.set 6 1 s else s, n, data.length, hit)

/-- Sends the packet of a beam STREAM burst whose seed names a beam of no set: as many records as the payload holds, in the order
of their addresses (log entry 141). -/
def looseBurst (p : Programme) (st : DmaStart) (x : DmaChannel) (d : Bytes) (bad : Option Nat) (s : State) :
    State × Nat × Nat × Bool :=
  let n := burstBytes s x d
  let size := sourceRecord d
  let pk : DrainPacket := { sample := 0, ch := 0, beam := 0, size := size
                            places := (List.range (n / size)).map fun i =>
                              hbmAddress d st.frame (dSrc d) + x.readBytes + i * size }
  let (s, data, hit) := beamSource x d pk n bad s
  let last := x.readBytes + n == dLength d && lastOnStream p st x.current d
  ((sendEgress p (dAux d) (beamPacket s p st d pk 0 [] data last hit) s).1, n, data.length, hit)

/-- Sends the event packet that channel 63 carries, from the half-port that it was built for, or drops it where that is no longer UP
(04 R96; 16 R372). -/
def eventBurst (st : DmaStart) (s : State) : State :=
  if s.ethUp st.act then eventLeaves st.act (fld st.data 3 1) st.data s else eventDropped s

/-- Sends the packet of a STREAM burst. Also says how many source bytes it took, its payload and whether it was damaged. -/
def streamBurst (x : DmaChannel) (d : Bytes) (bad : Option Nat) (s : State) : State × Nat × Nat × Bool :=
  if seedKind d % 16 = captureKind then
    match s.cap.dump with
    | some j => let (s, n, damaged) := dumpPacket j x.current s; (s, dLength d, n, damaged)
    | none => (s, dLength d, 0, false)
  else match x.start with
    | none => (s, dLength d - x.readBytes, 0, false)
    | some st =>
      if wSpace (dSrc d) = 4 then (eventBurst st s, dLength d - x.readBytes, st.data.length, false)
      else match s.dmaProg x with
        | some p =>
          if seedKind d % 16 = 1 then visBurst p st x d bad s
          else match drainSet p d with
            | some b => beamBurst p b st x d bad s
            | none => looseBurst p st x d bad s
        | none => (s, dLength d - x.readBytes, 0, false)

/-- The cycles of a wait that ends are counted (12 R299). -/
def settleWait (c : Nat) (s : State) : State :=
  let x := s.dch c
  match x.waitSince with
  | some t =>
    let s := if 2 ≤ x.waitKind then s else dmaCount c (4 + x.waitKind) (s.cycle - t) s
    s.onDch c fun y => { y with waitSince := none, waitLong := false, waitSlots := [] }
  | none => s

/-- The BUSY slots that a burst waits for: of each that it did not wait for before, its engine counts a conflict stall (08 R192). -/
def noteSlots (c : Nat) (d : Bytes) (s : State) : State :=
  let fresh := (dSlots d).filter fun e => s.slotHeld e.1 e.2 && !(s.dch c).waitSlots.contains e
  (fresh.foldl (fun s e => conflictStall e.1 s) s).onDch c fun y => { y with waitSlots := y.waitSlots ++ fresh }

/-- A burst waits: for BUSY slots, or for a staging buffer (08 R192, 10 R239). -/
def noteWait (c kind : Nat) (s : State) : State :=
  let x := s.dch c
  let began := x.waitSince.isNone || x.waitKind != kind
  let s := if began then
      (settleWait c s).onDch c fun y => { y with waitSince := some s.cycle, waitKind := kind, waitLong := false }
    else s
  match x.desc with
  | none => s
  | some d =>
    if kind = 0 then noteSlots c d s
    else if kind = 2 ∧ began = true then
      match finishTarget s c x d with
      | some b => raise 1003 (beamCount b.set 5 1 s)
      | none => s
    else s

/-! ### Starting a burst -/

/-- The bytes that a burst other than STREAM reads, and whether a granule of them was delivered bad. A scratchpad word of a
source slot may fail parity in a bit (09 R226). -/
def readSource (x : DmaChannel) (d : Bytes) (n : Nat) (bad : Option Nat) (s : State) : State × Bytes × Bool :=
  let src := dSrc d
  match wSpace src with
  | 0 =>
    let a := hbmAddress d x.frame src + x.readBytes + (if dMode d = 4 ∧ dCheck d = true then 16 else 0)
    let check := dMode d = 4 ∧ dCheck d = true ∧ x.readBytes = 0
    let (s, hit) := takeBad 3 a n (s.access 3 false [if check then (a - 16, n + 16) else (a, n)])
    (s, s.hbmRead a n, hit)
  | 1 =>
    let (s, b) := busReadBytes 2 (src % 2 ^ 32 + x.readBytes) n s
    (s, b, false)
  | 2 =>
    let (s, b) := slotBytes src x.readBytes n bad s
    (s, b, false)
  | _ => match x.start with
    | some st => (s, slice st.data (sumOf dLength (st.built.take x.current) + x.readBytes) n, false)
    | none => (s, slice (tget s.dma.inline x.current []) (src % 2 ^ 16 + x.readBytes) n, false)

/-- The header of a weight stream under CHECK, and the bytes of it that are read (10 R230, R231; 07 R178). -/
def weightBurst (x : DmaChannel) (d : Bytes) (n : Nat) (damaged : Bool) (s : State) : State :=
  let b := dAux d
  let s := if dCheck d = true ∧ x.readBytes = 0 then
      weightHeader b x.frame (s.hbmRead (hbmAddress d x.frame (dSrc d)) 16) s
    else s
  let s := if damaged then s.onBeam b fun y =>
      { y with bad := if y.bad.contains x.frame then y.bad else x.frame :: y.bad } else s
  match s.dmaProg x with
  | some p => match p.beams.find? fun y => y.set == b with
    | some set => weightRead set x.frame n s
    | none => s
  | none => s

/-- The finish of a slot's records into the staging buffer (10 R236 to R239). -/
def finishBurst (c : Nat) (x : DmaChannel) (d : Bytes) (data : Bytes) (s : State) : State :=
  match s.dmaProg x with
  | some p => finishTransfer p c (wEngine (dSrc d)) (wSlot (dSrc d)) x.frame (hbmAddress d x.frame (dDst d)) (recsOf data) s
  | none => s

/-- How a burst delivered bad marks its channel (12 R290): a host channel goes to ERROR at the descriptor's end; a reload
poisons its slot and a weight stream its set instead. -/
def markDamage (c : Nat) (d : Bytes) (damaged : Bool) (s : State) : State :=
  if !damaged || dMode d == 2 && (s.dch c).start.isSome || dMode d == 4 then s
  else s.onDch c fun y => if y.start.isNone then { y with hbmBad := true } else { y with damaged := true }

/-- A granted channel starts its burst: the request is consumed, its slots set BUSY, the source is read, and a STREAM burst
leaves as a packet. `withdrawn` says that the level request it sampled is withdrawn after the start (12 R292, R293). -/
def startBurst (c : Nat) (withdrawn : Bool) (bad : Option Nat) (s : State) : State :=
  match (s.dch c).desc with
  | none => s
  | some d =>
    let x := s.dch c
    let s := settleWait c s
    let s := dmaCount c 3 (x.nextAt - x.readyAt) s
    let trigger := match x.start with | some st => st.trigger | none => false
    let late := trigger && x.reqCount == 0 && withdrawn
    let s := if trigger && x.reqCount != 0 then s.onDch c fun y => { y with reqCount := y.reqCount - 1 } else s
    let s := if late then dmaCause c 5 (dmaCount c 6 1 (s.onDch c fun y => { y with level := false })) else s
    let s := if x.readBytes = 0 then
        (dSlots d).foldl (fun s e => s.onEngSlot e.1 e.2 fun y => { y with busyBy := 2 }) s
      else s
    let (s, n, pay, data, damaged) :=
      if dMode d = 6 then
        let (s, n, pay, damaged) := streamBurst x d bad s
        (s, n, pay, ([] : Bytes), damaged)
      else
        let n := burstBytes s x d
        let (s, data, damaged) := readSource x d n bad s
        (if dMode d = 4 then weightBurst x d n damaged s else s, n, n, data, damaged)
    let s := markDamage c d damaged s
    let burst : DmaBurst := { offset := x.readBytes, length := n, data := data, damaged := damaged }
    let s := s.onDch c fun y =>
      { y with readBytes := y.readBytes + n, inFlight := y.inFlight ++ [burst], nextAt := s.cycle + burstSpacing s d pay
               readyAt := s.cycle }
    { s with dma := { s.dma with order := s.dma.order ++ [c], granted := tput s.dma.granted (dPrio d) c } }

/-- The levels that the requesters hold now; the event packet queue holds its own while its packet waits (12 R292). -/
def setLevels (room : List Nat) (s : State) : State :=
  { s with dma := { s.dma with channels := s.dma.channels.map fun (e : Nat × DmaChannel) =>
      (e.1, { e.2 with level := room.contains e.1 || e.1 == 63 && e.2.state == 1 }) } }

/-- The DMA grants one eligible channel its burst. Loops of no-op markers go on, and what waits on a slot, a token or a staging buffer
is noted (12 R285, R287, R288). -/
def grantBurst (withdrawn : Bool) (bad : Option Nat) (s : State) : State :=
  let s := (s.dma.channels.map (·.1)).foldl (fun s c => resumeFetch c s) s
  let ready := (List.range 64).filter (burstReady s)
  let s := ready.foldl (fun s c => match burstWaits s c with | some k => noteWait c k s | none => s) s
  match grantChannel s (ready.filter fun c => (burstWaits s c).isNone) with
  | some c => startBurst c withdrawn bad s
  | none => s

/-- DMA_BURST_START: `dt` core cycles on, an eligible channel is granted; `room` lists the channels whose requester holds its
level. -/
def execDmaBurstStart (dt : Nat) (room : List Nat) (withdrawn : Bool) (bad : Option Nat) (s : State) (served : List Nat := []) :
    Host.Outcome State Fault Refusal :=
  let s := setLevels room ((s.advance dt).serves served)
  .next (if s.dmaLive then grantBurst withdrawn bad s else s)

/-- EVENT_PACKET_SEND: `dt` core cycles on, the hold-off ends or 64 records are queued. The burst of a packet for a half-port starts
at once where the DMA grants channel 63 now (16 R372, R373; 12 R287). -/
def execEventPacketSend (dt : Nat) (s : State) : Host.Outcome State Fault Refusal :=
  let s := s.advance dt
  .next (
    if eventPacketDue s then
      let ported := match eventPort s with | some p => p != 255 | none => false
      let s := sendEventPacket s
      if ported && grantChannel s s.startable == some 63 then startBurst 63 false none s else s
    else s)

/-! ### Completing a burst (12 R284, R288) -/

/-- Records enter a slot from the DMA: the slot's flags follow from them, and a granule delivered bad poisons it
(12 R288, 09 R218, 07 R178). -/
def slotIn' (e i : Nat) (loc : Bytes) (damaged : Bool) (data : Bytes) (s : State) : State :=
  let s := s.onEngSlot e i fun y => { y with overflow := false, poisoned := false }
  if damaged then poisonSlot e i loc s else enterRecords e i (locBlock .S e) (recsOf data) s

/-- The lane words of a weight burst: each 3-byte entry below a zero byte (12 R288). -/
def weightLines (data : Bytes) : List (List Nat) :=
  (List.range (data.length / 48)).map fun l => (List.range 16).map fun k => fld data (48 * l + 3 * k) 3

/-- Writes the operand lines of a weight burst, wrapping within the operand store. -/
def writeWeights (e first : Nat) (data : Bytes) (s : State) : State :=
  let ls := weightLines data
  s.onEng e fun g => ((List.range ls.length).zip ls).foldl (fun g x =>
    let a := (first + x.1) % 3072
    { g with lines := tput g.lines a x.2, bad := tdel g.bad a }) g

/-- A burst goes into the HBM through DMA_WR. -/
def dmaHbmWrite (a : Nat) (b : Bytes) (s : State) : State := (s.access 2 true [(a, b.length)]).hbmWrite a b

/-- What the write engine does with a burst; a FINISH goes through the finisher on its way (12 R286, R289). -/
def writeBurst (c : Nat) (x : DmaChannel) (d : Bytes) (b : DmaBurst) (s : State) : State :=
  let dst := dDst d
  match dMode d with
  | 0 =>
    if wSpace dst = 1 then busWriteBytes (dmaWriter s.fuses.variant) (dst % 2 ^ 32 + b.offset) b.data s
    else dmaHbmWrite (hbmAddress d x.frame dst + b.offset) b.data s
  | 1 => dmaHbmWrite (hbmAddress d x.frame dst + b.offset) b.data s
  | 2 =>
    slotIn' (wEngine dst) (wSlot dst) (locStack (hbmPlace s.fuses.variant (hbmAddress d x.frame (dSrc d))).stack)
      b.damaged b.data s
  | 3 =>
    let gen := match x.start with | some st => st.gen % 256 | none => 0
    (slotIn' (wEngine dst) (wSlot dst) [] false b.data s).setToken (handoverTile s x) { state := 2, gen := gen }
  | 4 => writeWeights (wEngine dst) (dst % 2 ^ 12 + b.offset / 48) b.data s
  | 5 => finishBurst c x d b.data s
  | _ => s

/-- The dump that channel 61 ran is complete: CAPTURE_DUMP replies with the packets sent (07 R167). -/
def dumpEnds (s : State) : State :=
  finishWork (fun w => match w with | .captureDump .. => true | _ => false) .ok
    (be 4 (match s.cap.dump with | some j => j.sent | none => 0)) s

/-- What the END of an internal channel's chain completes: a dump's command, or a load's (12 R280, R284). -/
def internalEnds (c : Nat) (s : State) : State :=
  if (s.dch c).state ≠ 5 then s
  else if c = 61 then dumpEnds s
  else if c = 62 then loadEnds s
  else s

/-- The oldest burst in flight is written; with the descriptor's last one, or the last in flight of one that is cut, the descriptor
completes (12 R284, R286, R295). -/
def completeBurst (c : Nat) (s : State) : State :=
  let x := s.dch c
  match x.desc, x.inFlight with
  | some d, b :: rest =>
    let s := { s with dma := { s.dma with order := s.dma.order.drop 1 } }
    let s := dmaCount c 2 b.length (dmaCount c 1 1 (writeBurst c x d b s))
    let s := s.onDch c fun y =>
      { y with inFlight := rest, written := y.written + b.length, readyAt := if 2 ≤ x.inFlight.length then s.cycle else y.readyAt }
    if dLength d ≤ (s.dch c).written ∨ x.cut = true ∧ rest.isEmpty = true then
      let (s, more) := completeDesc c s
      internalEnds c (if more then fetchDesc chainFuel c s else s)
    else s
  | _, _ => { s with dma := { s.dma with order := s.dma.order.drop 1 } }

/-- Whether the write of the burst that comes next waits: for a frozen controller, for its regulator, or for a port ahead of it
(07 R170, R177). -/
def writeWaits (s : State) : Bool := match s.nextDmaWrite with | some n => !s.granted 2 n | none => false

/-- DMA_BURST_COMPLETE: `dt` core cycles on, the write of the burst in flight whose read completed first is acknowledged. A load whose
write its port will never take ends with BUSY (07 R169; log entry 142). -/
def execDmaBurstComplete (s : State) (dt : Nat := 0) : Host.Outcome State Fault Refusal :=
  let s := s.advance dt
  .next (match s.dma.order with
    | c :: _ =>
      if !s.dmaLive then s
      else if writeWaits s then (if c = 62 ∧ s.portShare 2 = some 0 then loadStops .busy s else s)
      else completeBurst c s
    | [] => s)

end Sys2Proof.Machine
end

