-- ==== Sys2Proof/Machine/StateCmds.lean ====
section
/-! DEFINITION. IDENTIFY, GET_STATE, PEEK, POKE, SELFTEST and CAPTURE_DUMP, and the background of the pending commands whose
end no other event gives (13_command_protocol.md R311, R316, R317; 00 R2; 07 R167; 12 R280; 14 R342). -/

namespace Sys2Proof.Machine

/-! ### IDENTIFY (13 Table 13.6; 19 R425) -/

/-- IDENTIFY. -/
def identify (_ : Ctx) (s : State) : Verdict :=
  let differs := match activeCopy s with | some a => a != s.boot.copy | none => false
  .answer (be 1 s.fuses.variant.ctorIdx ++ be 1 s.fuses.stepping.toNat ++ be 1 (b2n s.fuses.keySet) ++ [0] ++
    be 8 s.fuses.serial.toNat ++ be 4 s.cmd.bootId ++ be 4 (s.unit 0).firmware ++ be 4 (s.unit 1).firmware ++
    be 1 (s.boot.copy + 128 * b2n differs) ++ [0, 0, 0] ++ be 6 s.fuses.macBase.toNat ++ [0, 0])

/-! ### GET_STATE (13 R317, Table 13.10) -/

/-- The entries 0 to n - 1 of a counter table, 4 bytes each. -/
def counters4 (t : Tab Nat) (n : Nat) : Bytes := (List.range n).flatMap fun i => be 4 (tget t i 0)

/-- A time with its epoch id. -/
def Stamp.bytes (t : Stamp) : Bytes := be 8 t.packed ++ be 2 t.epoch

/-- The DEVICE item, with the first and the last orbit closed at ingest in shedding stage 3 or higher at its end (17 Table 17.7;
log entry 10). -/
def deviceItem (s : State) : Bytes :=
  let armed := s.slotIn .armed
  let active := if s.cu.held then s.cu.holder else 2
  let gen := match armed with | some i => (s.slot i).generation | none => 0
  let swap := match armed with | some i => (s.slot i).swapOrbit | none => 2 ^ 64 - 1
  stateItem 0 (be 1 s.pwr.state.ctorIdx ++ be 1 s.pwr.stage ++ be 1 active ++ be 1 (b2n s.pwr.wakeFailed) ++
    be 1 (b2n (s.hbm.state == 1)) ++ ((List.range 3).flatMap fun i => be 1 (s.slot i).state.ctorIdx) ++
    be 4 s.generation ++ be 4 gen ++ be 8 swap ++ be 8 s.orbitField ++ s.stamp.bytes ++ be 8 s.newestJsn ++
    be 4 s.ing.malformed ++ be 4 s.ing.noProgramme ++ be 4 s.ing.unknownPath ++ be 4 s.ing.orbitsByDeadline ++
    be 4 s.ing.framesByDeadline ++ be 4 (powerStatus s) ++ be 4 (powerSag s) ++ be 4 (ofSigned 32 s.pwr.junction) ++
    counters4 s.pwr.rails 10 ++ (powerCounters s).flatMap (be 4) ++
    be 8 (s.pwr.shedFirst.getD (2 ^ 64 - 1)) ++ be 8 (s.pwr.shedLast.getD (2 ^ 64 - 1)))

/-- An INGEST item (04 R88). -/
def ingestItem (s : State) (i : Nat) : Bytes :=
  let q := tget s.ing.paths i {}
  stateItem i (counters4 q.counters 11 ++ be 8 (packTime (q.lastSeen.getD 0)) ++ be 2 q.lastSeenEpoch ++ be 1 (b2n q.silent))

/-- The total group delay (05 R115), in units of 2^-16 digitiser samples (DESIGN CHOICE, log entry 38). -/
def totalDelay (p : Programme) : Nat := (p.pA * p.f - 1) * 2 ^ 15 + p.f * p.groupDelay

/-- A CHANNELISER item: the counters, each DC estimator of the path's owned slices with its frozen state, and the total group
delay (05 R115, R124; log entry 38). -/
def channeliserItem (s : State) (i : Nat) : Bytes :=
  let slices := match s.inEffect with
    | some p => if (p.ordinal i).isSome then p.owned else []
    | none => []
  stateItem i (counters4 (tget s.ch.paths i {}).counters 6 ++
    (slices.flatMap fun k =>
      let f := s.fine i k
      be 8 (ofSigned 64 f.d.1) ++ be 8 (ofSigned 64 f.d.2) ++ be 1 (b2n f.frozen)) ++
    be 8 (match s.inEffect with | some p => totalDelay p | none => 0))

/-- A MIDWAY item (06 R146). -/
def midwayItem (s : State) (i : Nat) : Bytes :=
  stateItem i (match s.ct.closed[i]? with
    | some f => be 8 f.orbit ++ f.stamp.bytes ++ be 4 f.missing ++ be 1 (b2n f.byDeadline)
    | none => be 8 (2 ^ 64 - 1) ++ List.replicate 15 0)

/-- An ENGINE item (08 R204, R206). -/
def engineItem (s : State) (e : Nat) : Bytes := stateItem e (be 4 (engStatus s e) ++ counters4 (s.eng e).counters 17)

/-- A BEAM item (10 R244). -/
def beamItem (s : State) (b : Nat) : Bytes :=
  let x := s.beam b
  stateItem b (counters4 x.counters 7 ++ be 8 (x.lastRead.getD (2 ^ 64 - 1)) ++ be 1 x.inUse)

/-- A PROGRAMME item (11 R263). -/
def programmeItem (s : State) (i : Nat) : Bytes :=
  let x := s.slot i
  stateItem i (be 1 x.state.ctorIdx ++ be 4 x.generation ++ be 4 x.slip ++ be 4 x.lateActs ++ be 2 x.error ++ be 2 x.section_ ++
    be 4 x.offset ++ be 4 x.detail)

/-- A DMA item (12 R297, R299). -/
def dmaItem (s : State) (c : Nat) : Bytes :=
  let x := s.dch c
  stateItem c (be 4 (s.dmaStatus c) ++ be 4 x.current ++
    (List.range 9).flatMap fun i => be (if i = 2 then 8 else 4) (tget x.counters i 0))

/-- A COMMANDS item (13 R324). -/
def commandsItem (s : State) (t : Nat) : Bytes :=
  stateItem t ((List.range 31).flatMap fun i => be 4 (tget s.cmd.counters (64 * t + i) 0))

/-- How many indices a selector has; none where it is not defined. -/
def selectorSize (v : Variant) (sel : Nat) : Option Nat :=
  match sel with
  | 0 => some 1
  | 1 | 2 => some 2048
  | 3 | 5 => some 16
  | 4 => some (enginesOf v)
  | 6 | 8 => some 3
  | 7 => some 64
  | _ => none

/-- The item of a selector. -/
def stateItemOf (s : State) (sel i : Nat) : Bytes :=
  match sel with
  | 0 => deviceItem s
  | 1 => ingestItem s i
  | 2 => channeliserItem s i
  | 3 => midwayItem s i
  | 4 => engineItem s i
  | 5 => beamItem s i
  | 6 => programmeItem s i
  | 7 => dmaItem s i
  | _ => commandsItem s i

/-- Clears the counters of an item (03 R69); of the DEVICE item also the event tree's (16 R371). -/
def clearItem (sel i : Nat) (s : State) : State :=
  match sel with
  | 0 =>
    clearOccurrences { s with
      ing := { s.ing with malformed := 0, noProgramme := 0, unknownPath := 0, orbitsByDeadline := 0, framesByDeadline := 0 }
      pwr := { s.pwr with transitions := 0, refusals := 0, wakeRepeats := 0, wakeFailures := 0, stageEntries := [] } }
  | 1 => { s with ing := { s.ing with paths := tmod s.ing.paths i {} fun q => { q with counters := [] } } }
  | 2 => { s with ch := { s.ch with paths := tmod s.ch.paths i {} fun q => { q with counters := [] } } }
  | 4 => s.onEng i fun g => { g with counters := [] }
  | 5 => s.onBeam i fun b => { b with counters := [] }
  | 6 => s.onSlot i fun x => { x with lateActs := 0 }
  | 7 => s.onDch i fun x => { x with counters := [] }
  | 8 => { s with cmd := { s.cmd with counters := s.cmd.counters.filter fun e => e.1 / 64 != i } }
  | _ => s

/-- The whole items that fit the room left in a reply. -/
def fitItems (room : Nat) : List (Nat × Bytes) → List (Nat × Bytes)
  | [] => []
  | x :: xs => if x.2.length ≤ room then x :: fitItems (room - x.2.length) xs else []

/-- GET_STATE. -/
def getState (c : Ctx) (s : State) : Verdict :=
  let sel := fld c.p 0 1
  let flags := fld c.p 1 1
  let first := fld c.p 2 2
  let count := fld c.p 4 2
  match selectorSize s.fuses.variant sel with
  | none => .no .badParam
  | some size =>
    if 1 < flags ∨ fld c.p 6 2 ≠ 0 ∨ size ≤ first then .no .badParam
    else .done fun s =>
      let items := fitItems 8946 (((List.range (min count (size - first))).map (first + ·)).map fun i => (i, stateItemOf s sel i))
      ((if flags = 1 then items.foldl (fun s x => clearItem sel x.1 s) s else s),
       be 1 sel ++ [0] ++ be 2 items.length ++ items.flatMap (·.2))

/-! ### PEEK and POKE (13 R316, Table 13.9; 15 R359) -/

/-- The HBM address that a control address reaches through a unit's window, if it lies in the window. -/
def windowAddress (s : State) (m a : Nat) : Option Nat :=
  if 0x30000000 ≤ a ∧ a < 0x40000000 then some (0x10000000 * tget s.bus.windows m 0 + (a - 0x30000000)) else none

/-- The word addresses of a PEEK or POKE. -/
def pokeWords (p : Bytes) : List Nat := (List.range (fld p 2 2)).map fun i => fld p 4 8 + 4 * i

/-- The HBM bytes that a word of a space reaches. -/
def hbmWord (s : State) (m space a : Nat) : Option Nat := if space = 0 then some a else windowAddress s m a

/-- The status that refuses a PEEK or POKE, if one does; a controller that does not run answers BAD_STATE, or HW_FAULT where
its training has failed, and a CONTROL port without a share BUSY (07 R169; log entry 39). -/
def accessRefused (c : Ctx) (s : State) : Option Status :=
  let space := fld c.p 0 1
  let words := pokeWords c.p
  let top := if space = 0 then hbmCapacity s.fuses.variant else 2 ^ 32
  if 1 < space ∨ fld c.p 1 1 ≠ 0 ∨ 2237 < fld c.p 2 2 ∨ fld c.p 4 8 % 4 ≠ 0 ∨ (words.any fun a => decide (top ≤ a)) = true then
    some .badParam
  else if space = 0 ∧ s.portShare 6 = some 0 then some .busy
  else if (words.any fun a => (hbmWord s c.unit space a).isSome) && s.hbm.state != 0 then
    if s.hbm.state = 1 then some .frozen else if space = 1 then none else if s.boot.hbmFailed then some .hwFault else some .badState
  else none

/-- PEEK. -/
def peek (c : Ctx) (s : State) : Verdict :=
  match accessRefused c s with
  | some st => .no st
  | none => .done fun s =>
    (pokeWords c.p).foldl (fun (x : State × Bytes) a =>
      if fld c.p 0 1 = 0 then (controlAccess false a ((takeBad 6 a 4 x.1).1), x.2 ++ x.1.hbmRead a 4)
      else
        let s := busWithin c.unit false a [(0, 0)] x.1
        (s, x.2 ++ be 4 ((tget s.bus.readData c.unit []).getD 0 0))) (s, [])

/-- Whether a word lies in a partition region of a programme that holds its slot, or in the window of an engine that is not
IDLE. -/
def pokeLocked (s : State) (m space a : Nat) : Bool :=
  (match hbmWord s m space a with
   | some h => s.heldProgrammes.any fun p => p.regions.any fun r =>
      r.size != 0 && decide (r.base < h + 4) && decide (h < r.base + r.size)
   | none => false) ||
  (space == 1 && decide (0x40000000 ≤ a) && decide (a < 0x50000000) && (s.eng ((a - 0x40000000) / 0x80000)).loaded)

/-- Whether a word lies in a programme slot whose image a pending VALIDATE_PROGRAMME reads (13 R312). -/
def pokeBusy (s : State) (m space a : Nat) : Bool :=
  match hbmWord s m space a with
  | some h => s.working fun w => match w with
    | .validate i => decide (slotBase s.fuses.variant i < h + 4) && decide (h < slotBase s.fuses.variant i + maxImage)
    | _ => false
  | none => false

/-- POKE. -/
def poke (c : Ctx) (s : State) : Verdict :=
  let space := fld c.p 0 1
  let words := pokeWords c.p
  let tree := space == 1 && words.any fun a => decide (0x20030000 ≤ a) && decide (a < 0x20040000)
  match accessRefused c s with
  | some .badParam => .no .badParam
  | refused =>
    if tree then .no .badParam
    else if words.any (pokeLocked s c.unit space) then .no .badState
    else match refused with
      | some st => .no st
      | none => if words.any (pokeBusy s c.unit space) then .no .busy else .did fun s =>
        ((List.range words.length).zip words).foldl (fun s x =>
          let v := fld c.p (12 + 4 * x.1) 4
          if space = 0 then (controlAccess true x.2 s).hbmWrite x.2 (be 4 v) else busWithin c.unit true x.2 [(15, v)] s) s

/-! ### SELFTEST (13 Table 13.9; 14 R342) -/

/-- SELFTEST of the standby unit, of engines or of half-ports. -/
def selftest (c : Ctx) (s : State) : Verdict :=
  let scope := fld c.p 0 1
  let first := fld c.p 2 2
  let count := fld c.p 4 2
  let items := (List.range count).map (first + ·)
  let zeros : Bytes := List.replicate 36 0
  if 2 < scope ∨ fld c.p 1 1 ≠ 0 ∨ fld c.p 6 2 ≠ 0 then .no .badParam
  else if scope = 0 then
    match s.standby with
    | some _ => if s.working fun w => match w with | .selftest 0 _ _ => true | _ => false then .no .busy
      else .later (.selftest 0 first count) fun s => s.onUnit (1 - s.cu.holder) fun x =>
        { x with cycleSteps := 0, cyclePassed := 0, cycleFailed := 0, retryStep := none }
    | none => .no .badState
  else
    let size := if scope = 1 then enginesOf s.fuses.variant else halfPortsOf s.fuses.variant
    if size < first + count then .no .badParam
    else if count = 0 then .answer zeros
    else if scope = 1 ∧ (items.any fun e => (s.eng e).loaded) = true then .no .badState
    else if scope = 2 ∧ (items.any fun h => (s.hp h).state != .off && cfgMode (s.hpConfig h) != 6) = true then .no .badState
    else if s.working fun w => match w with
      | .selftest k a n => k == scope && decide (a < first + count) && decide (first < a + n)
      | _ => false then .no .busy
    else .later (.selftest scope first count) id

/-! ### CAPTURE_DUMP (07 R167; 12 R280; 13 under Table 13.8) -/

/-- Channel 61 starts on the packets of the orbits that are held whole (log entry 40). -/
def startDump (orbit orbits hp : Nat) (dest : Bytes) (s : State) : State :=
  let held := match s.cap.oldest, s.cap.newest with
    | some o, some k => ((List.range orbits).map (orbit + ·)).filter fun n => decide (o ≤ n) && decide (n ≤ k)
    | _, _ => []
  let job := s.cap.layout.map fun l =>
    ({ layout := l, hp := hp, dest := dest, payload := s.eff 0x0308, orbits := held } : DumpJob)
  let s := { s with cap := { s.cap with dump := job } }
  let gen := match job with | some j => j.layout.gen | none => 0
  let st : DmaStart := { gen := gen, frame := 0, act := 0, first := 0, trigger := true, built := [], cut := false }
  if (job.bind fun j => j.packets.head?).isSome then startChain 61 st s else s

/-- CAPTURE_DUMP: channel 61 runs until the last packet; a dump of no packet ends at once. -/
def captureDump (c : Ctx) (s : State) : Verdict :=
  let hp := fld c.p 12 1
  if halfPortsOf s.fuses.variant ≤ hp ∨ fld c.p 10 2 ≠ 0 ∨ fld c.p 13 1 ≠ 0 then .no .badParam
  else if s.hbm.state = 1 then .no .frozen
  else if s.cap.state ≠ 3 then .no .badState
  else if s.working fun w => match w with | .captureDump _ _ _ _ => true | _ => false then .no .busy
  else .later (.captureDump (fld c.p 0 8) (fld c.p 8 2) hp (c.p.drop 14))
    (startDump (fld c.p 0 8) (fld c.p 8 2) hp (c.p.drop 14))
    fun s => if (s.cap.dump.bind fun j => j.packets.head?).isSome then s else dumpEnds s

/-! ### PENDING_COMMAND_COMPLETE (13 R311) -/

/-- Whether the work can end now: a validation reads its image from the HBM (07 R177). -/
def workCanEnd (s : State) (w : PendingWork) : Bool :=
  match w with
  | .validate _ => s.hbm.state == 0
  | _ => true

/-- The background of a pending command, with its final status and reply parameters; none where another event ends it. -/
def backgroundDone (w : PendingWork) (r : WorkOutcome) (s : State) : Option (State × Status × Bytes) :=
  match w with
  | .validate i => some (validationDone i s)
  | .commitPreset keys =>
    if r.failed then some (flashFailed s, .hwFault, [])
    else
      let (s, b) := presetWritten keys s
      some (s, .ok, b)
  | .imageWrite copy off data =>
    if r.failed then some (imageWriteFailed copy off data s, .hwFault, [])
    else
      let (s, b) := imageWritten copy off data s
      some (s, .ok, b)
  | .imageVerify copy =>
    let (s, b) := imageVerified copy r.failed s
    some (s, .ok, b)
  | .selftest 0 _ _ => none
  | .selftest _ _ _ =>
    if r.failed then some (s, .hwFault, [])
    else some (s, .ok, be 4 r.passedCount ++ be 4 r.failedCount ++ padTo 28 (match r.location with | some l => locCode l | none => []))
  | _ => none

/-- PENDING_COMMAND_COMPLETE: the background of a session's pending command ends, with an outcome that the hardware gives. -/
def execPendingCommandComplete (session seq : Nat) (r : WorkOutcome) (s : State) : Host.Outcome State Fault Refusal :=
  .next (
    if s.server.isNone then s
    else match s.cmd.pending.find? fun c => c.session == session && c.seq == seq with
      | none => s
      | some c =>
        if workCanEnd s c.work then
          match backgroundDone c.work r s with
          | some (s, st, b) => finishPending c st b s
          | none => s
        else s)

end Sys2Proof.Machine
end

