-- ==== Sys2Proof/Machine/Interp.lean ====
section
/-! DEFINITION. The command interpreter: which handler each opcode has (13_command_protocol.md R316). -/

namespace Sys2Proof.Machine

/-- The verdict of steps 10 to 12 on a command. -/
def handle (c : Ctx) (s : State) : Verdict :=
  match c.op with
  | .hello => hello c s
  | .identify => identify c s
  | .goodbye => goodbye c s
  | .echo => echo c s
  | .getSetting => getSetting c s
  | .setSetting => setSetting c s
  | .commitPreset => commitPreset c s
  | .revertSetting => revertSetting c s
  | .listSettings => listSettings c s
  | .getState => getState c s
  | .enterPowerState => enterPowerState c s
  | .resume => resume c s
  | .loadProgramme => loadProgramme c s
  | .validateProgramme => validateProgramme c s
  | .armProgramme => armProgramme c s
  | .haltProgramme => haltProgramme c s
  | .tbConfigure => tbConfigure c s
  | .tbStep => tbStep c s
  | .tbRestep => tbRestep c s
  | .tbStatus => tbStatus c s
  | .tbAlarm => tbAlarm c s
  | .portConfigure => portConfigure c s
  | .portStatus => portStatus c s
  | .laneLoopback => laneLoopback c s
  | .laneEye => laneEye c s
  | .dmaSubmit => dmaSubmit c s
  | .dmaLink => dmaLink c s
  | .dmaStop => dmaStop c s
  | .hbmStatus => hbmStatus c s
  | .hbmThaw => hbmThaw c s
  | .captureFreeze => captureFreeze c s
  | .captureDump => captureDump c s
  | .eventsRead => eventsRead c s
  | .eventsClear => eventsClear c s
  | .faultRecordRead => faultRecordRead c s
  | .eventRoute => eventRoute c s
  | .journalRead => journalRead c s
  | .journalMark => journalMark c s
  | .cuStatus => cuStatus c s
  | .cuSwitchover => cuSwitchover c s
  | .cuHealth => cuHealth c s
  | .cuResync => cuResync c s
  | .calConfigure => calConfigure c s
  | .calQueue => calQueue c s
  | .calStrobe => calStrobeCmd c s
  | .peek => peek c s
  | .poke => poke c s
  | .selftest => selftest c s
  | .imageWrite => imageWrite c s
  | .imageVerify => imageVerify c s
  | .imageActivate => imageActivate c s

/-- BATON_CLAIM: a unit claims the free baton and, where its state allows the claim, takes over (14 R328, R339). -/
def execBatonClaim (u : Nat) (s : State) : Host.Outcome State Fault Refusal :=
  .next (if u ≤ 1 ∧ s.ctlLive = true ∧ s.cu.held = false ∧ s.cu.passing = true ∧ canClaim s u = true then takeOver handle u s else s)

/-- What the block does with no command waiting: where an interpreter serves and command packets wait, the oldest is served
(13 R312, R445); else a half-port in a near-end loopback receives the oldest frame of its own (03 R67); otherwise the core clock
advances by one cycle (02 R19; log entry 5). -/
def tick (s : State) : State :=
  if s.server.isSome && !s.cmd.queue.isEmpty then serveNext handle s
  else match s.loopedPort with
    | some h => takeLooped h s
    | none => s.advance 1

end Sys2Proof.Machine
end

