-- ==== Sys2Proof/Machine/NuminRows.lean ====
section
/-! DEFINITION. The rows of the table that are commands of the Numin protocol (13_command_protocol.md Tables 13.6 to 13.9):
each arrives with a good header and trailer and goes through the steps of Table 13.4. -/

namespace Sys2Proof.Machine

/-- HELLO. -/
def execHello (h : CmdHdr) (p : Bytes) (s : State) : Host.Outcome State Fault Refusal :=
  .next (numinCommand handle .hello h p s)

/-- IDENTIFY. -/
def execIdentify (h : CmdHdr) (p : Bytes) (s : State) : Host.Outcome State Fault Refusal :=
  .next (numinCommand handle .identify h p s)

/-- GOODBYE. -/
def execGoodbye (h : CmdHdr) (p : Bytes) (s : State) : Host.Outcome State Fault Refusal :=
  .next (numinCommand handle .goodbye h p s)

/-- ECHO. -/
def execEcho (h : CmdHdr) (p : Bytes) (s : State) : Host.Outcome State Fault Refusal :=
  .next (numinCommand handle .echo h p s)

/-- GET_SETTING. -/
def execGetSetting (h : CmdHdr) (p : Bytes) (s : State) : Host.Outcome State Fault Refusal :=
  .next (numinCommand handle .getSetting h p s)

/-- SET_SETTING. -/
def execSetSetting (h : CmdHdr) (p : Bytes) (s : State) : Host.Outcome State Fault Refusal :=
  .next (numinCommand handle .setSetting h p s)

/-- COMMIT_PRESET. -/
def execCommitPreset (h : CmdHdr) (p : Bytes) (s : State) : Host.Outcome State Fault Refusal :=
  .next (numinCommand handle .commitPreset h p s)

/-- REVERT_SETTING. -/
def execRevertSetting (h : CmdHdr) (p : Bytes) (s : State) : Host.Outcome State Fault Refusal :=
  .next (numinCommand handle .revertSetting h p s)

/-- LIST_SETTINGS. -/
def execListSettings (h : CmdHdr) (p : Bytes) (s : State) : Host.Outcome State Fault Refusal :=
  .next (numinCommand handle .listSettings h p s)

/-- GET_STATE. -/
def execGetState (h : CmdHdr) (p : Bytes) (s : State) : Host.Outcome State Fault Refusal :=
  .next (numinCommand handle .getState h p s)

/-- ENTER_POWER_STATE. -/
def execEnterPowerState (h : CmdHdr) (p : Bytes) (s : State) : Host.Outcome State Fault Refusal :=
  .next (numinCommand handle .enterPowerState h p s)

/-- RESUME. -/
def execResume (h : CmdHdr) (p : Bytes) (s : State) : Host.Outcome State Fault Refusal :=
  .next (numinCommand handle .resume h p s)

/-- LOAD_PROGRAMME. -/
def execLoadProgramme (h : CmdHdr) (p : Bytes) (s : State) : Host.Outcome State Fault Refusal :=
  .next (numinCommand handle .loadProgramme h p s)

/-- LOAD_PROGRAMME with FORM 1: a chunk of a delay segment (11 R277). -/
def execLoadProgrammeSegment (h : CmdHdr) (p : Bytes) (s : State) : Host.Outcome State Fault Refusal :=
  .next (numinCommand handle .loadProgramme h p s)

/-- VALIDATE_PROGRAMME. -/
def execValidateProgramme (h : CmdHdr) (p : Bytes) (s : State) : Host.Outcome State Fault Refusal :=
  .next (numinCommand handle .validateProgramme h p s)

/-- ARM_PROGRAMME. -/
def execArmProgramme (h : CmdHdr) (p : Bytes) (s : State) : Host.Outcome State Fault Refusal :=
  .next (numinCommand handle .armProgramme h p s)

/-- HALT_PROGRAMME. -/
def execHaltProgramme (h : CmdHdr) (p : Bytes) (s : State) : Host.Outcome State Fault Refusal :=
  .next (numinCommand handle .haltProgramme h p s)

/-- HALT_PROGRAMME with AT_ONCE (11 R275). -/
def execHaltProgrammeAtOnce (h : CmdHdr) (p : Bytes) (s : State) : Host.Outcome State Fault Refusal :=
  .next (numinCommand handle .haltProgramme h p s)

/-- TB_CONFIGURE. -/
def execTbConfigure (h : CmdHdr) (p : Bytes) (s : State) : Host.Outcome State Fault Refusal :=
  .next (numinCommand handle .tbConfigure h p s)

/-- TB_STEP. -/
def execTbStep (h : CmdHdr) (p : Bytes) (s : State) : Host.Outcome State Fault Refusal :=
  .next (numinCommand handle .tbStep h p s)

/-- TB_RESTEP. -/
def execTbRestep (h : CmdHdr) (p : Bytes) (s : State) : Host.Outcome State Fault Refusal :=
  .next (numinCommand handle .tbRestep h p s)

/-- TB_STATUS. -/
def execTbStatus (h : CmdHdr) (p : Bytes) (s : State) : Host.Outcome State Fault Refusal :=
  .next (numinCommand handle .tbStatus h p s)

/-- TB_ALARM. -/
def execTbAlarm (h : CmdHdr) (p : Bytes) (s : State) : Host.Outcome State Fault Refusal :=
  .next (numinCommand handle .tbAlarm h p s)

/-- TB_ALARM with MASK 0 (02 R46). -/
def execTbAlarmDisarm (h : CmdHdr) (p : Bytes) (s : State) : Host.Outcome State Fault Refusal :=
  .next (numinCommand handle .tbAlarm h p s)

/-- PORT_CONFIGURE. -/
def execPortConfigure (h : CmdHdr) (p : Bytes) (s : State) : Host.Outcome State Fault Refusal :=
  .next (numinCommand handle .portConfigure h p s)

/-- PORT_STATUS. -/
def execPortStatus (h : CmdHdr) (p : Bytes) (s : State) : Host.Outcome State Fault Refusal :=
  .next (numinCommand handle .portStatus h p s)

/-- LANE_LOOPBACK. -/
def execLaneLoopback (h : CmdHdr) (p : Bytes) (s : State) : Host.Outcome State Fault Refusal :=
  .next (numinCommand handle .laneLoopback h p s)

/-- LANE_EYE. -/
def execLaneEye (h : CmdHdr) (p : Bytes) (s : State) : Host.Outcome State Fault Refusal :=
  .next (numinCommand handle .laneEye h p s)

/-- DMA_SUBMIT. -/
def execDmaSubmit (h : CmdHdr) (p : Bytes) (s : State) : Host.Outcome State Fault Refusal :=
  .next (numinCommand handle .dmaSubmit h p s)

/-- DMA_LINK. -/
def execDmaLink (h : CmdHdr) (p : Bytes) (s : State) : Host.Outcome State Fault Refusal :=
  .next (numinCommand handle .dmaLink h p s)

/-- DMA_STOP. -/
def execDmaStop (h : CmdHdr) (p : Bytes) (s : State) : Host.Outcome State Fault Refusal :=
  .next (numinCommand handle .dmaStop h p s)

/-- HBM_STATUS. -/
def execHbmStatus (h : CmdHdr) (p : Bytes) (s : State) : Host.Outcome State Fault Refusal :=
  .next (numinCommand handle .hbmStatus h p s)

/-- HBM_THAW. -/
def execHbmThaw (h : CmdHdr) (p : Bytes) (s : State) : Host.Outcome State Fault Refusal :=
  .next (numinCommand handle .hbmThaw h p s)

/-- CAPTURE_FREEZE. -/
def execCaptureFreeze (h : CmdHdr) (p : Bytes) (s : State) : Host.Outcome State Fault Refusal :=
  .next (numinCommand handle .captureFreeze h p s)

/-- CAPTURE_FREEZE with RELEASE (07 R167). -/
def execCaptureRelease (h : CmdHdr) (p : Bytes) (s : State) : Host.Outcome State Fault Refusal :=
  .next (numinCommand handle .captureFreeze h p s)

/-- CAPTURE_DUMP. -/
def execCaptureDump (h : CmdHdr) (p : Bytes) (s : State) : Host.Outcome State Fault Refusal :=
  .next (numinCommand handle .captureDump h p s)

/-- EVENTS_READ. -/
def execEventsRead (h : CmdHdr) (p : Bytes) (s : State) : Host.Outcome State Fault Refusal :=
  .next (numinCommand handle .eventsRead h p s)

/-- EVENTS_CLEAR. -/
def execEventsClear (h : CmdHdr) (p : Bytes) (s : State) : Host.Outcome State Fault Refusal :=
  .next (numinCommand handle .eventsClear h p s)

/-- FAULT_RECORD_READ. -/
def execFaultRecordRead (h : CmdHdr) (p : Bytes) (s : State) : Host.Outcome State Fault Refusal :=
  .next (numinCommand handle .faultRecordRead h p s)

/-- EVENT_ROUTE. -/
def execEventRoute (h : CmdHdr) (p : Bytes) (s : State) : Host.Outcome State Fault Refusal :=
  .next (numinCommand handle .eventRoute h p s)

/-- JOURNAL_READ. -/
def execJournalRead (h : CmdHdr) (p : Bytes) (s : State) : Host.Outcome State Fault Refusal :=
  .next (numinCommand handle .journalRead h p s)

/-- JOURNAL_MARK. -/
def execJournalMark (h : CmdHdr) (p : Bytes) (s : State) : Host.Outcome State Fault Refusal :=
  .next (numinCommand handle .journalMark h p s)

/-- CU_STATUS. -/
def execCuStatus (h : CmdHdr) (p : Bytes) (s : State) : Host.Outcome State Fault Refusal :=
  .next (numinCommand handle .cuStatus h p s)

/-- CU_SWITCHOVER. -/
def execCuSwitchover (h : CmdHdr) (p : Bytes) (s : State) : Host.Outcome State Fault Refusal :=
  .next (numinCommand handle .cuSwitchover h p s)

/-- CU_HEALTH. -/
def execCuHealth (h : CmdHdr) (p : Bytes) (s : State) : Host.Outcome State Fault Refusal :=
  .next (numinCommand handle .cuHealth h p s)

/-- CU_RESYNC. -/
def execCuResync (h : CmdHdr) (p : Bytes) (s : State) : Host.Outcome State Fault Refusal :=
  .next (numinCommand handle .cuResync h p s)

/-- CAL_CONFIGURE. -/
def execCalConfigure (h : CmdHdr) (p : Bytes) (s : State) : Host.Outcome State Fault Refusal :=
  .next (numinCommand handle .calConfigure h p s)

/-- CAL_QUEUE. -/
def execCalQueue (h : CmdHdr) (p : Bytes) (s : State) : Host.Outcome State Fault Refusal :=
  .next (numinCommand handle .calQueue h p s)

/-- CAL_STROBE. -/
def execCalStrobe (h : CmdHdr) (p : Bytes) (s : State) : Host.Outcome State Fault Refusal :=
  .next (numinCommand handle .calStrobe h p s)

/-- PEEK. -/
def execPeek (h : CmdHdr) (p : Bytes) (s : State) : Host.Outcome State Fault Refusal :=
  .next (numinCommand handle .peek h p s)

/-- POKE. -/
def execPoke (h : CmdHdr) (p : Bytes) (s : State) : Host.Outcome State Fault Refusal :=
  .next (numinCommand handle .poke h p s)

/-- SELFTEST. -/
def execSelftest (h : CmdHdr) (p : Bytes) (s : State) : Host.Outcome State Fault Refusal :=
  .next (numinCommand handle .selftest h p s)

/-- IMAGE_WRITE. -/
def execImageWrite (h : CmdHdr) (p : Bytes) (s : State) : Host.Outcome State Fault Refusal :=
  .next (numinCommand handle .imageWrite h p s)

/-- IMAGE_VERIFY. -/
def execImageVerify (h : CmdHdr) (p : Bytes) (s : State) : Host.Outcome State Fault Refusal :=
  .next (numinCommand handle .imageVerify h p s)

/-- IMAGE_ACTIVATE. -/
def execImageActivate (h : CmdHdr) (p : Bytes) (s : State) : Host.Outcome State Fault Refusal :=
  .next (numinCommand handle .imageActivate h p s)

end Sys2Proof.Machine
end

