-- ==== Sys2Proof/Machine/Dispatch.lean ====
section
/-! DEFINITION. The dispatch of each command to its meaning. -/

namespace Sys2Proof.Machine

def exec (i : Instr) (s : State) : Host.Outcome State Fault Refusal :=
  match i with
  | .hello h p => Sys2Proof.Machine.execHello h p s
  | .identify h p => Sys2Proof.Machine.execIdentify h p s
  | .goodbye h p => Sys2Proof.Machine.execGoodbye h p s
  | .echo h p => Sys2Proof.Machine.execEcho h p s
  | .getSetting h p => Sys2Proof.Machine.execGetSetting h p s
  | .setSetting h p => Sys2Proof.Machine.execSetSetting h p s
  | .commitPreset h p => Sys2Proof.Machine.execCommitPreset h p s
  | .revertSetting h p => Sys2Proof.Machine.execRevertSetting h p s
  | .listSettings h p => Sys2Proof.Machine.execListSettings h p s
  | .getState h p => Sys2Proof.Machine.execGetState h p s
  | .enterPowerState h p => Sys2Proof.Machine.execEnterPowerState h p s
  | .resume h p => Sys2Proof.Machine.execResume h p s
  | .loadProgramme h p => Sys2Proof.Machine.execLoadProgramme h p s
  | .loadProgrammeSegment h p => Sys2Proof.Machine.execLoadProgrammeSegment h p s
  | .validateProgramme h p => Sys2Proof.Machine.execValidateProgramme h p s
  | .armProgramme h p => Sys2Proof.Machine.execArmProgramme h p s
  | .haltProgramme h p => Sys2Proof.Machine.execHaltProgramme h p s
  | .haltProgrammeAtOnce h p => Sys2Proof.Machine.execHaltProgrammeAtOnce h p s
  | .tbConfigure h p => Sys2Proof.Machine.execTbConfigure h p s
  | .tbStep h p => Sys2Proof.Machine.execTbStep h p s
  | .tbRestep h p => Sys2Proof.Machine.execTbRestep h p s
  | .tbStatus h p => Sys2Proof.Machine.execTbStatus h p s
  | .tbAlarm h p => Sys2Proof.Machine.execTbAlarm h p s
  | .tbAlarmDisarm h p => Sys2Proof.Machine.execTbAlarmDisarm h p s
  | .portConfigure h p => Sys2Proof.Machine.execPortConfigure h p s
  | .portStatus h p => Sys2Proof.Machine.execPortStatus h p s
  | .laneLoopback h p => Sys2Proof.Machine.execLaneLoopback h p s
  | .laneEye h p => Sys2Proof.Machine.execLaneEye h p s
  | .laneEyeScanComplete n phase volt counts => Sys2Proof.Machine.execLaneEyeScanComplete n phase volt counts s
  | .dmaSubmit h p => Sys2Proof.Machine.execDmaSubmit h p s
  | .dmaLink h p => Sys2Proof.Machine.execDmaLink h p s
  | .dmaStop h p => Sys2Proof.Machine.execDmaStop h p s
  | .hbmStatus h p => Sys2Proof.Machine.execHbmStatus h p s
  | .hbmThaw h p => Sys2Proof.Machine.execHbmThaw h p s
  | .captureFreeze h p => Sys2Proof.Machine.execCaptureFreeze h p s
  | .captureRelease h p => Sys2Proof.Machine.execCaptureRelease h p s
  | .captureDump h p => Sys2Proof.Machine.execCaptureDump h p s
  | .eventsRead h p => Sys2Proof.Machine.execEventsRead h p s
  | .eventsClear h p => Sys2Proof.Machine.execEventsClear h p s
  | .faultRecordRead h p => Sys2Proof.Machine.execFaultRecordRead h p s
  | .eventRoute h p => Sys2Proof.Machine.execEventRoute h p s
  | .journalRead h p => Sys2Proof.Machine.execJournalRead h p s
  | .journalMark h p => Sys2Proof.Machine.execJournalMark h p s
  | .cuStatus h p => Sys2Proof.Machine.execCuStatus h p s
  | .cuSwitchover h p => Sys2Proof.Machine.execCuSwitchover h p s
  | .cuHealth h p => Sys2Proof.Machine.execCuHealth h p s
  | .cuResync h p => Sys2Proof.Machine.execCuResync h p s
  | .calConfigure h p => Sys2Proof.Machine.execCalConfigure h p s
  | .calQueue h p => Sys2Proof.Machine.execCalQueue h p s
  | .calStrobe h p => Sys2Proof.Machine.execCalStrobe h p s
  | .peek h p => Sys2Proof.Machine.execPeek h p s
  | .poke h p => Sys2Proof.Machine.execPoke h p s
  | .selftest h p => Sys2Proof.Machine.execSelftest h p s
  | .imageWrite h p => Sys2Proof.Machine.execImageWrite h p s
  | .imageVerify h p => Sys2Proof.Machine.execImageVerify h p s
  | .imageActivate h p => Sys2Proof.Machine.execImageActivate h p s
  | .commandPacketArrival o packet => Sys2Proof.Machine.execCommandPacketArrival o packet s
  | .pendingCommandComplete session seq r => Sys2Proof.Machine.execPendingCommandComplete session seq r s
  | .sessionTimeout slot => Sys2Proof.Machine.execSessionTimeout slot s
  | .writeEnd data sent => Sys2Proof.Machine.execWriteEnd data sent s
  | .sbBlockWriteAppend data sent => Sys2Proof.Machine.execSbBlockWriteAppend data sent s
  | .sbReadStatus => Sys2Proof.Machine.execSbReadStatus s
  | .sbBlockRead n => Sys2Proof.Machine.execSbBlockRead n s
  | .sbDiscard sent => Sys2Proof.Machine.execSbDiscard sent s
  | .sbWakeAddressMatch addr data => Sys2Proof.Machine.execSbWakeAddressMatch addr s data
  | .wakeNLow => Sys2Proof.Machine.execWakeNLow s
  | .porstNAssert => Sys2Proof.Machine.execPorstNAssert s
  | .boot pins => Sys2Proof.Machine.execBoot pins s
  | .bootStepComplete bad repaired => Sys2Proof.Machine.execBootStepComplete bad repaired s
  | .tapResetInstructionLoad code => Sys2Proof.Machine.execTapResetInstructionLoad code s
  | .tapResetInstructionLeave code pins => Sys2Proof.Machine.execTapResetInstructionLeave code pins s
  | .tapReset pins => Sys2Proof.Machine.execTapReset pins s
  | .bootStatusReleaseA m => Sys2Proof.Machine.execBootStatusReleaseA m s
  | .bootStatusReleaseB m => Sys2Proof.Machine.execBootStatusReleaseB m s
  | .ethFrameReceive h dt frame => Sys2Proof.Machine.execEthFrameReceive h dt frame s
  | .ingestFrameDrain dt => Sys2Proof.Machine.execIngestFrameDrain dt s
  | .pathSilent path dt => Sys2Proof.Machine.execPathSilent path dt s
  | .mpFrameReceive frame => Sys2Proof.Machine.execMpFrameReceive frame s
  | .mpLinkChange up signal => Sys2Proof.Machine.execMpLinkChange up signal s
  | .ptpSync h layer2 dt m => Sys2Proof.Machine.execPtpSync h layer2 dt m s
  | .ptpFollowUp h layer2 dt m => Sys2Proof.Machine.execPtpFollowUp h layer2 dt m s
  | .ptpAnnounce h layer2 dt m => Sys2Proof.Machine.execPtpAnnounce h layer2 dt m s
  | .ptpDelayResp h layer2 dt m => Sys2Proof.Machine.execPtpDelayResp h layer2 dt m s
  | .delayReqSend n dt => Sys2Proof.Machine.execDelayReqSend n dt s
  | .tbSyncTimeout n => Sys2Proof.Machine.execTbSyncTimeout n s
  | .ppsInEdge dt refCycles => Sys2Proof.Machine.execPpsInEdge dt refCycles s
  | .ppsInLost dt => Sys2Proof.Machine.execPpsInLost dt s
  | .evTbRefMissing => Sys2Proof.Machine.execEvTbRefMissing s
  | .ref10mReturn refCycles => Sys2Proof.Machine.execRef10mReturn refCycles s
  | .alarmFire dt => Sys2Proof.Machine.execAlarmFire dt s
  | .orbitDeadlineClose dt => Sys2Proof.Machine.execOrbitDeadlineClose dt s
  | .orbitStamp dt => Sys2Proof.Machine.execOrbitStamp dt s
  | .ppsOutPulse n dt => Sys2Proof.Machine.execPpsOutPulse n dt s
  | .ppsOutPulseEnd n dt => Sys2Proof.Machine.execPpsOutPulseEnd n dt s
  | .frameDeadlineClose dt => Sys2Proof.Machine.execFrameDeadlineClose dt s
  | .hpRetryTimer h => Sys2Proof.Machine.execHpRetryTimer h s
  | .hpTrainingComplete h rtt results => Sys2Proof.Machine.execHpTrainingComplete h rtt results s
  | .hpTrainingTimeout h => Sys2Proof.Machine.execHpTrainingTimeout h s
  | .laneSignalLoss n => Sys2Proof.Machine.execLaneSignalLoss n s
  | .laneLockLoss h lane pll => Sys2Proof.Machine.execLaneLockLoss h lane s pll
  | .eyeFail n => Sys2Proof.Machine.execEyeFail n s
  | .laneReferenceLost k => Sys2Proof.Machine.execLaneReferenceLost k s
  | .laneReferenceReturn k => Sys2Proof.Machine.execLaneReferenceReturn k s
  | .electricalIdleEnter h => Sys2Proof.Machine.execElectricalIdleEnter h s
  | .fastExit h tx dt => Sys2Proof.Machine.execFastExit h tx dt s
  | .idleKeepaliveExit h dt => Sys2Proof.Machine.execIdleKeepaliveExit h dt s
  | .idleExitFail h lanes => Sys2Proof.Machine.execIdleExitFail h lanes s
  | .trainA h body lane => Sys2Proof.Machine.execTrainA h body s lane
  | .trainB h body => Sys2Proof.Machine.execTrainB h body s
  | .mwLinkBlock h body => Sys2Proof.Machine.execMwLinkBlock h body s
  | .mwLinkBlockSend h idles => Sys2Proof.Machine.execMwLinkBlockSend h s idles
  | .mwFrameSend h => Sys2Proof.Machine.execMwFrameSend h s
  | .mwDataFrame h started frame => Sys2Proof.Machine.execMwDataFrame h started frame s
  | .mwCloseFrame h frame => Sys2Proof.Machine.execMwCloseFrame h frame s
  | .mwControlError h => Sys2Proof.Machine.execMwControlError h s
  | .mwReplayTimeout h => Sys2Proof.Machine.execMwReplayTimeout h s
  | .evMwPeerLost h => Sys2Proof.Machine.execEvMwPeerLost h s
  | .slicerBlock path => Sys2Proof.Machine.execSlicerBlock path s
  | .fineFilterbankBlock path slice => Sys2Proof.Machine.execFineFilterbankBlock path slice s
  | .ctRunWrite dt served => Sys2Proof.Machine.execCtRunWrite s dt served
  | .ctReadBlock dt served => Sys2Proof.Machine.execCtReadBlock s dt served
  | .actBoundary => Sys2Proof.Machine.execActBoundary s
  | .programmeSwap => Sys2Proof.Machine.execProgrammeSwap s
  | .programmeRetired => Sys2Proof.Machine.execProgrammeRetired s
  | .captureTrigEdge => Sys2Proof.Machine.execCaptureTrigEdge s
  | .captureRunWrite dt => Sys2Proof.Machine.execCaptureRunWrite dt s
  | .hbmUncorrectableError kind a port syndrome held => Sys2Proof.Machine.execHbmUncorrectableError kind a port syndrome held s
  | .hbmCorrectedError a b => Sys2Proof.Machine.execHbmCorrectedError a b s
  | .hbmScrub found b held => Sys2Proof.Machine.execHbmScrub found b s held
  | .hbmRefresh stack pc bank => Sys2Proof.Machine.execHbmRefresh s stack pc bank
  | .hbmRetime stack => Sys2Proof.Machine.execHbmRetime stack s
  | .evHbmTempWarn stack t => Sys2Proof.Machine.execEvHbmTempWarn stack t s
  | .carouselBlockDeliver bad => Sys2Proof.Machine.execCarouselBlockDeliver bad s
  | .nop e => Sys2Proof.Machine.execNop e s
  | .add e d a b => Sys2Proof.Machine.execAdd e d a b s
  | .sub e d a b => Sys2Proof.Machine.execSub e d a b s
  | .and e d a b => Sys2Proof.Machine.execAnd e d a b s
  | .or e d a b => Sys2Proof.Machine.execOr e d a b s
  | .xor e d a b => Sys2Proof.Machine.execXor e d a b s
  | .shl e d a b => Sys2Proof.Machine.execShl e d a b s
  | .shr e d a b => Sys2Proof.Machine.execShr e d a b s
  | .sra e d a b => Sys2Proof.Machine.execSra e d a b s
  | .slt e d a b => Sys2Proof.Machine.execSlt e d a b s
  | .addi e d a imm => Sys2Proof.Machine.execAddi e d a imm s
  | .lui e d imm => Sys2Proof.Machine.execLui e d imm s
  | .mul2 e d a b c => Sys2Proof.Machine.execMul2 e d a b c s
  | .mulw e d a b => Sys2Proof.Machine.execMulw e d a b s
  | .movag e k b => Sys2Proof.Machine.execMovag e k b s
  | .movga e d k => Sys2Proof.Machine.execMovga e d k s
  | .adda e k imm => Sys2Proof.Machine.execAdda e k imm s
  | .setc e k b c => Sys2Proof.Machine.execSetc e k b c s
  | .ldc e d k imm => Sys2Proof.Machine.execLdc e d k imm s
  | .stc e k b imm => Sys2Proof.Machine.execStc e k b imm s
  | .rdlc e d l => Sys2Proof.Machine.execRdlc e d l s
  | .br e target => Sys2Proof.Machine.execBr e target s
  | .bz e r target => Sys2Proof.Machine.execBz e r target s
  | .bnz e r target => Sys2Proof.Machine.execBnz e r target s
  | .bltz e r target => Sys2Proof.Machine.execBltz e r target s
  | .bgez e r target => Sys2Proof.Machine.execBgez e r target s
  | .jal e target => Sys2Proof.Machine.execJal e target s
  | .jr e r => Sys2Proof.Machine.execJr e r s
  | .repeatLoop e l len count => Sys2Proof.Machine.execRepeat e l len count s
  | .repeatLoopG e l len r => Sys2Proof.Machine.execRepeatg e l len r s
  | .waitf e k n => Sys2Proof.Machine.execWaitf e k n s
  | .freef e k n => Sys2Proof.Machine.execFreef e k n s
  | .waito e => Sys2Proof.Machine.execWaito e s
  | .psync e => Sys2Proof.Machine.execPsync e s
  | .tacq e slot gt gc h => Sys2Proof.Machine.execTacq e slot gt gc h s
  | .trel e slot bad => Sys2Proof.Machine.execTrel e slot bad s
  | .tclr e slot => Sys2Proof.Machine.execTclr e slot s
  | .pass e kr kc slot gs real ir ic => Sys2Proof.Machine.execPass e kr kc slot gs real ir ic s
  | .bload e k iw bad => Sys2Proof.Machine.execBload e k iw bad s
  | .bpass e kc slot ic => Sys2Proof.Machine.execBpass e kc slot ic s
  | .dkick e ch => Sys2Proof.Machine.execDkick e ch s
  | .engineStallResume e => Sys2Proof.Machine.execEngineStallResume e s
  | .engStallWarn e dt => Sys2Proof.Machine.execEngStallWarn e dt s
  | .passStreamStart e bad => Sys2Proof.Machine.execPassStreamStart e bad s
  | .passWriteBack e bad => Sys2Proof.Machine.execPassWriteBack e bad s
  | .bpassWriteBack e bad => Sys2Proof.Machine.execBpassWriteBack e bad s
  | .passReplay e bad => Sys2Proof.Machine.execPassReplay e bad s
  | .engineStop e => Sys2Proof.Machine.execEngineStop e s
  | .storeRefetch e const addr b => Sys2Proof.Machine.execStoreRefetch e const addr b s
  | .dmaBurstStart dt room withdrawn bad served => Sys2Proof.Machine.execDmaBurstStart dt room withdrawn bad s served
  | .dmaBurstComplete dt => Sys2Proof.Machine.execDmaBurstComplete s dt
  | .slotWaitLong c dt => Sys2Proof.Machine.execSlotWaitLong c dt s
  | .linkNew c a => Sys2Proof.Machine.execLinkNew c a s
  | .dmaCauseW1c c mask => Sys2Proof.Machine.execDmaCauseW1c c mask s
  | .stickyW1c w value => Sys2Proof.Machine.execStickyW1c w value s
  | .counterClear value => Sys2Proof.Machine.execCounterClear value s
  | .engineCauseW1c e mask => Sys2Proof.Machine.execEngineCauseW1c e mask s
  | .busCounterClear m k v => Sys2Proof.Machine.execBusCounterClear m k v s
  | .wdogKick m u value => Sys2Proof.Machine.execWdogKick m u value s
  | .commitJsnLo m v => Sys2Proof.Machine.execCommitJsnLo m v s
  | .release m => Sys2Proof.Machine.execRelease m s
  | .calliopeStrobeRegister value => Sys2Proof.Machine.execCalliopeStrobeRegister value s
  | .queueApertureWrite n word => Sys2Proof.Machine.execQueueApertureWrite n word s
  | .sysctlRemapWrite m v => Sys2Proof.Machine.execSysctlRemapWrite m v s
  | .registerWrite m a v => Sys2Proof.Machine.execRegisterWrite m a v s
  | .busTransaction m write a beats done stops => Sys2Proof.Machine.execBusTransaction m write a beats done stops s
  | .evBusTimeout m => Sys2Proof.Machine.execEvBusTimeout m s
  | .sliceModeSwitch => Sys2Proof.Machine.execSliceModeSwitch s
  | .eventPacketSend dt => Sys2Proof.Machine.execEventPacketSend dt s
  | .watchdogExpiry u => Sys2Proof.Machine.execWatchdogExpiry u s
  | .heartbeatPathLost u path => Sys2Proof.Machine.execHeartbeatPathLost u path s
  | .heartbeatPathBack u path => Sys2Proof.Machine.execHeartbeatPathBack u path s
  | .epochCopy whole => Sys2Proof.Machine.execEpochCopy whole s
  | .epochCommit u bad => Sys2Proof.Machine.execEpochCommit u bad s
  | .batonClaim u => Sys2Proof.Machine.execBatonClaim u s
  | .shadowExecute u differs => Sys2Proof.Machine.execShadowExecute u differs s
  | .selftestCycleStep u passed => Sys2Proof.Machine.execSelftestCycleStep u passed s
  | .unitRestart u flashBad => Sys2Proof.Machine.execUnitRestart u flashBad s
  | .handshakeBlockAnswer delay => Sys2Proof.Machine.execHandshakeBlockAnswer delay s
  | .handshakeBudgetExpiry => Sys2Proof.Machine.execHandshakeBudgetExpiry s
  | .wakeStepComplete repaired => Sys2Proof.Machine.execWakeStepComplete repaired s
  | .wakeStepTimeout failing => Sys2Proof.Machine.execWakeStepTimeout failing s
  | .supplyMonitorSample rails => Sys2Proof.Machine.execSupplyMonitorSample rails s
  | .shedStageEnter k => Sys2Proof.Machine.execShedStageEnter k s
  | .shedStageExit k => Sys2Proof.Machine.execShedStageExit k s
  | .tjSensorRead t => Sys2Proof.Machine.execTjSensorRead t s
  | .xtalLost => Sys2Proof.Machine.execXtalLost s
  | .xtalRetry => Sys2Proof.Machine.execXtalRetry s
  | .coreClockLost hbm => Sys2Proof.Machine.execCoreClockLost hbm s
  | .mpPllUnlock => Sys2Proof.Machine.execMpPllUnlock s
  | .calLoadEdge => Sys2Proof.Machine.execCalLoadEdge s
  | .calStrobeApply dt => Sys2Proof.Machine.execCalStrobeApply dt s
  | .calQueueSample n dt bad => Sys2Proof.Machine.execCalQueueSample n dt bad s
  | .switchoverTimeout => Sys2Proof.Machine.execSwitchoverTimeout s
  | .startupSelftestComplete u passed => Sys2Proof.Machine.execStartupSelftestComplete u passed s
  | .eyeFigureRefresh n h v trial sync prbs corrected => Sys2Proof.Machine.execEyeFigureRefresh n h v trial s sync prbs corrected
  | .uncorrectableCodeword h => Sys2Proof.Machine.execUncorrectableCodeword h s
  | .slowClockToXtal => Sys2Proof.Machine.execSlowClockToXtal s
  | .calNcoSample n dt => Sys2Proof.Machine.execCalNcoSample n dt s
  | .mpLinkRestart locked => Sys2Proof.Machine.execMpLinkRestart locked s

end Sys2Proof.Machine
end

