-- ==== Sys2Proof/Safety.lean ====
section
/-! DEFINITION. What a safe run of the block is: it goes on, its memories stay in canonical form and what only manufacture
writes stays as it was (00 R2; 19 R422 Table 19.6; log entries 2, 3 and 7). -/

namespace Sys2Proof.Machine

/-- The block goes on: the step answers a next state (log entry 7). -/
def Goes (s : State) : Prop := ∃ t, step s = .next t

/-- Every byte memory is in its one canonical form: addresses strictly rising, no entry equal to what an unlisted address
reads as (07 R156; 15 R354; 19 R411). -/
abbrev MemoriesOk (s : State) : Prop :=
  memWf 0 s.hbm.mem = true ∧ memWf 0xFF s.boot.flash = true ∧ memWf 0 s.bus.retained = true ∧ memWf 0 s.bus.sram = true ∧
    memWf 0 s.bus.localA = true ∧ memWf 0 s.bus.localB = true

/-- What is fixed at manufacture (19 Table 19.6; 19 R411): the fuses and the flash device's size. -/
abbrev SameDevice (s t : State) : Prop := t.fuses = s.fuses ∧ t.boot.flashSize = s.boot.flashSize

/-! ### Frames of the engine statements -/

/-- The 24-bit reading of a general register of engine `e` (08 R195). -/
def State.gval (s : State) (e r : Nat) : BitVec 24 := BitVec.ofNat 24 ((s.eng e).reg r)

/-- The instruction that the word at the program counter of engine `e` spells (08 R198; log entry 64). -/
def State.fetched (s : State) (e : Nat) : Option Instr := (s.eng e).code[(s.eng e).pc]?.bind (sequencerWord e)

/-- `t` is `s` but for engine `e`. -/
def OnlyEngine (e : Nat) (s t : State) : Prop :=
  t = { s with engines := t.engines } ∧ ∀ k, k ≠ e → t.eng k = s.eng k

/-- `y` is the engine `x` but for its program counter, what `after` keeps of branches and REPEAT bodies, its loop counters
and the mark of an instruction that could stall. -/
def Sequenced (x y : Engine) : Prop :=
  y = { x with pc := y.pc, delay := y.delay, loops := y.loops, lc := y.lc, syncPoint := y.syncPoint }

/-- `t` is `s` but for the general registers of engine `e` and its sequencing. -/
def OnlyRegs (e : Nat) (s t : State) : Prop :=
  OnlyEngine e s t ∧ Sequenced { s.eng e with g := (t.eng e).g } (t.eng e)

/-- General register `d` of engine `e` takes a value, the others keep theirs, and nothing else of the device changes. -/
def SetsReg (e d : Nat) (v : BitVec 24) (s t : State) : Prop :=
  t.gval e d = v ∧ (∀ r, r ≠ d → t.gval e r = s.gval e r) ∧ OnlyRegs e s t

/-- The state after `n` NOPs of engine `e`. -/
def afterNops (e n : Nat) (s : State) : State := match n with
  | 0 => s
  | n + 1 => afterNops e n (seqStep e (fun g => g) s)

/-! ### Commands of an open session (13 Table 13.4) -/

/-- The state once a packet has been counted as received, and as a retransmission if it is one (13 R324). -/
def State.heard (s : State) (h : CmdHdr) : State :=
  let s := bumpCmd h.origin.transport .received s
  if h.retransmit then bumpAt h.origin.transport retransmitCtr s else s

/-- A command passes steps 1 to 10 of Table 13.4: its transport carries it (01 R16), an interpreter serves and no packet waits before it, its session, in slot
`slot`, is open and bound to its source, its SEQ is ahead of H and neither cached nor pending, a cache entry is free, its
length is right, and unit `u` serves the opcode in the session's role and the device's condition. -/
abbrev Admitted (s : State) (h : CmdHdr) (op : Op) (p : Bytes) (slot u : Nat) : Prop :=
  s.carries h.origin = true ∧ s.server = some u ∧ s.cmd.queue = [] ∧ h.toStandby = false ∧ h.session.toNat ≠ 0 ∧
  s.findSession h.session.toNat h.origin = some slot ∧ (s.session slot).cached h.seq.toNat = none ∧
  1 ≤ (h.seq.toNat + 2 ^ 32 - (s.session slot).high) % 2 ^ 32 ∧
  (h.seq.toNat + 2 ^ 32 - (s.session slot).high) % 2 ^ 32 ≤ 2 ^ 31 - 1 ∧
  (s.session slot).cacheStuck = false ∧ (∀ c ∈ s.cmd.pending, c.session = h.session.toNat → c.seq ≠ h.seq.toNat) ∧
  op.lengthOk p = true ∧ conditionCheck { hdr := h, op := op, p := p, unit := u } (some slot) s = none

/-- The session in `slot` holds, as the reply of the command `h`, a reply of a status with reply parameters; H is its SEQ
(13 R304, R306, R307). -/
def ReplyIs (h : CmdHdr) (op : Op) (slot : Nat) (st : Status) (params : Bytes) (t : State) : Prop :=
  (t.session slot).high = h.seq.toNat ∧ ∃ e, (t.session slot).cached h.seq.toNat = some e ∧
    e.pending = decide (st = .acceptedPending) ∧ e.reply.status = st ∧ e.reply.opcode = op.code ∧
    e.reply.session = h.session.toNat ∧ e.reply.origin = h.origin ∧ e.reply.params = params

/-- The command `h` completes with OK and reply parameters. -/
def Replied (h : CmdHdr) (op : Op) (slot : Nat) (params : Bytes) (t : State) : Prop := ReplyIs h op slot .ok params t

/-- The command `h` is answered with ACCEPTED_PENDING, and its work is under way (13 R311). -/
def Started (h : CmdHdr) (op : Op) (slot : Nat) (w : PendingWork) (t : State) : Prop :=
  ReplyIs h op slot .acceptedPending [] t ∧
    ∃ c ∈ t.cmd.pending, c.session = h.session.toNat ∧ c.seq = h.seq.toNat ∧ c.opcode = op.code ∧ c.work = w

/-- The command `h` is accepted, its effect goes on and its reply comes once that has ended; till then no other is served
(13 R312; 17 R396). -/
def Awaits (h : CmdHdr) (op : Op) (slot : Nat) (t : State) : Prop :=
  t.server = none ∧ ∃ r, t.cmd.awaited = some (some slot, r) ∧ r.opcode = op.code ∧ r.seq = h.seq.toNat ∧
    r.session = h.session.toNat ∧ r.origin = h.origin

/-- The command that waits, whose reply `r` stands ready, replies with a status and reply parameters; H is its SEQ (13 R306, R307). -/
def AwaitedReplies (slot : Nat) (r : Reply) (st : Status) (params : Bytes) (s t : State) : Prop :=
  t.cmd.awaited = none ∧ t.session slot = (s.session slot).consume r.seq false { r with status := st, params := params }

/-- The command of an opcode with a header and parameters (13 Tables 13.6 to 13.9). -/
def Op.command (op : Op) (h : CmdHdr) (p : Bytes) : Instr :=
  match op with
  | .hello => .hello h p
  | .identify => .identify h p
  | .goodbye => .goodbye h p
  | .echo => .echo h p
  | .getSetting => .getSetting h p
  | .setSetting => .setSetting h p
  | .commitPreset => .commitPreset h p
  | .revertSetting => .revertSetting h p
  | .listSettings => .listSettings h p
  | .getState => .getState h p
  | .enterPowerState => .enterPowerState h p
  | .resume => .resume h p
  | .loadProgramme => .loadProgramme h p
  | .validateProgramme => .validateProgramme h p
  | .armProgramme => .armProgramme h p
  | .haltProgramme => .haltProgramme h p
  | .tbConfigure => .tbConfigure h p
  | .tbStep => .tbStep h p
  | .tbRestep => .tbRestep h p
  | .tbStatus => .tbStatus h p
  | .tbAlarm => .tbAlarm h p
  | .portConfigure => .portConfigure h p
  | .portStatus => .portStatus h p
  | .laneLoopback => .laneLoopback h p
  | .laneEye => .laneEye h p
  | .dmaSubmit => .dmaSubmit h p
  | .dmaLink => .dmaLink h p
  | .dmaStop => .dmaStop h p
  | .hbmStatus => .hbmStatus h p
  | .hbmThaw => .hbmThaw h p
  | .captureFreeze => .captureFreeze h p
  | .captureDump => .captureDump h p
  | .eventsRead => .eventsRead h p
  | .eventsClear => .eventsClear h p
  | .faultRecordRead => .faultRecordRead h p
  | .eventRoute => .eventRoute h p
  | .journalRead => .journalRead h p
  | .journalMark => .journalMark h p
  | .cuStatus => .cuStatus h p
  | .cuSwitchover => .cuSwitchover h p
  | .cuHealth => .cuHealth h p
  | .cuResync => .cuResync h p
  | .calConfigure => .calConfigure h p
  | .calQueue => .calQueue h p
  | .calStrobe => .calStrobe h p
  | .peek => .peek h p
  | .poke => .poke h p
  | .selftest => .selftest h p
  | .imageWrite => .imageWrite h p
  | .imageVerify => .imageVerify h p
  | .imageActivate => .imageActivate h p

/-! ### Frames of the other commands -/

/-- `t` is `s` but for the event tree. -/
def OnlyEvents (s t : State) : Prop := t = { s with ev := t.ev }

/-- `t` is `s` but for half-port `h` and the event tree. -/
def OnlyHp (h : Nat) (s t : State) : Prop :=
  t = { s with hps := t.hps, ev := t.ev } ∧ ∀ k, k ≠ h → t.hp k = s.hp k

/-- `t` is `s` but for DMA channel `c` and the event tree. -/
def OnlyDch (c : Nat) (s t : State) : Prop :=
  t = { s with dma := t.dma, ev := t.ev } ∧ ∀ k, k ≠ c → t.dch k = s.dch k

/-- `t` is `s` but for time base `n` and the event tree. -/
def OnlyTb (n : Nat) (s t : State) : Prop :=
  t = { s with tbs := t.tbs, ev := t.ev } ∧ ∀ k, k ≠ n → t.tb k = s.tb k

/-- Only what a reply on its way changes: counters, the Sideband's buffers, the frames sent, those that a near-end loopback
returns to its half-port, and the event tree. -/
def OnlyAnswered (s t : State) : Prop :=
  t = { s with ev := t.ev, mp := t.mp, sent := t.sent, hps := t.hps
               cmd := { s.cmd with counters := t.cmd.counters, sideband := t.cmd.sideband } } ∧
    ∀ k, t.hp k = { s.hp k with looped := (t.hp k).looped }

end Sys2Proof.Machine
end

