-- ==== Sys2Proof/Certificates/Slice0/Obligations.lean ====
section
/-! DEFINITION. The statements for the provers. -/

open Sys2Proof Sys2Proof.Machine

/-! ### The step -/

/-- A step with a command in front of the queue is that command's effect on the state with the queue's rest. -/
def Obligations.StepRunsFront : Prop :=
  ∀ (c : Instr) (rest : List Instr) (s : State), step { s with pending := c :: rest } = exec c { s with pending := rest }

/-- With no command in its queue the block serves the oldest command packet that waits, or receives the oldest frame of a half-port
in a near-end loopback, or else runs one core cycle, every base and the units' heartbeats with it (log entry 5: the model's choice of what an idle step
is). -/
def Obligations.IdleSteps : Prop :=
  ∀ (s : State), s.pending = [] →
    (s.server = none ∨ s.cmd.queue = [] → s.loopedPort = none → ∃ t, step s = .next t ∧ t = { s with
        cycle := s.cycle + 1, tbs := t.tbs, cu := { s.cu with units := t.cu.units } } ∧
      (∀ u, ∃ n b c, t.unit u = { s.unit u with mailbox := n, wire := b, beatAt := c }) ∧
      ∀ n, n < 4 → ((s.tb n).mode = .disabled → t.tb n = s.tb n) ∧
        ((s.tb n).mode ≠ .disabled → t.tb n = { s.tb n with count := ((s.tb n).count + (s.tb n).increment) % tbWrap })) ∧
    (∀ u q rest, s.server = some u → s.cmd.queue = q :: rest →
      step s = .next (servePacket handle u q { s with cmd := { s.cmd with queue := rest } })) ∧
    (∀ h, s.server = none ∨ s.cmd.queue = [] → s.loopedPort = some h → step s = .next (takeLooped h s))

/-- Reset: the queue of commands is empty, the pin PORST_N holds the device; no sticky bit, fault or session is there, every
event has the route of Table 16.3, the remaps are clear with the slices in, every DMA channel is idle, every half-port OFF and
every base DISABLED; and the invariants of the memories hold. -/
def Obligations.ResetState : Prop :=
  let s := State.reset
  s.pending = [] ∧ s.boot.porstLow = true ∧ s.ev.sticky = 0 ∧ s.ev.faults = [] ∧ s.ev.queue = [] ∧
    (∀ e, s.route e = defaultRoute s.fuses.variant e) ∧ (∀ k, (s.session k).isOpen = false) ∧ s.cmd.journal = [] ∧
    s.bus.remapA = false ∧ s.bus.remapB = false ∧ s.bus.slices = true ∧ (∀ c, (s.dch c).state = 0 ∧ (s.dch c).cause = 0) ∧
    (∀ h, (s.hp h).state = .off ∧ (s.hp h).cause = 0) ∧ (∀ n, (s.tb n).mode = .disabled ∧ (s.tb n).lastEpoch = 0) ∧
    s.cu.held = false ∧ (∀ i, (s.slot i).state = .empty) ∧ MemoriesOk s

/-- Every step keeps every byte memory in its canonical form.
No step changes the fuses or the size of the flash: no command writes what manufacture alone writes (19 Table 19.6, R411). -/
def Obligations.InvariantsKept : Prop :=
  (∀ (s t : State), MemoriesOk s → step s = .next t → MemoriesOk t) ∧
  (∀ (s t : State), step s = .next t → SameDevice s t)

/-! ### The sequencer and the array (08, 09) -/

/-- The arithmetic of Table 8.8: an instruction that executes sets its destination to the 24-bit result, and changes no
other register and nothing else of the device.
MUL2 writes the low 24 bits of the two products with a shared first operand, and MULW the 48-bit signed product, low
half in gd and high half in g(d+1) (08 R197). -/
def Obligations.EngineArithmetic : Prop :=
  (∀ (s : State) (e d a b imm : Nat) (i : Int), s.seqReady e = true →
     let x := s.gval e a
     let y := s.gval e b
     let n := y.toNat % 32
     (∃ t, exec (.add e d a b) s = .next t ∧ SetsReg e d (x + y) s t) ∧
     (∃ t, exec (.sub e d a b) s = .next t ∧ SetsReg e d (x - y) s t) ∧
     (∃ t, exec (.and e d a b) s = .next t ∧ SetsReg e d (x &&& y) s t) ∧
     (∃ t, exec (.or e d a b) s = .next t ∧ SetsReg e d (x ||| y) s t) ∧
     (∃ t, exec (.xor e d a b) s = .next t ∧ SetsReg e d (x ^^^ y) s t) ∧
     (∃ t, exec (.shl e d a b) s = .next t ∧ SetsReg e d (x <<< n) s t) ∧
     (∃ t, exec (.shr e d a b) s = .next t ∧ SetsReg e d (x >>> n) s t) ∧
     (∃ t, exec (.sra e d a b) s = .next t ∧ SetsReg e d (x.sshiftRight n) s t) ∧
     (∃ t, exec (.slt e d a b) s = .next t ∧ SetsReg e d (if x.slt y then 1 else 0) s t) ∧
     (∃ t, exec (.addi e d a i) s = .next t ∧ SetsReg e d (x + BitVec.ofInt 24 i) s t) ∧
     (∃ t, exec (.lui e d imm) s = .next t ∧ SetsReg e d (BitVec.ofNat 24 imm <<< 12) s t)) ∧
  (∀ (s : State) (e d a b c : Nat), s.seqReady e = true →
     let x := s.gval e a
     let y := s.gval e b
     let z := s.gval e c
     (∃ t, exec (.mul2 e d a b c) s = .next t ∧ OnlyRegs e s t ∧ t.gval e d = x * y ∧ t.gval e (d + 1) = x * z ∧
       ∀ r, r ≠ d → r ≠ d + 1 → t.gval e r = s.gval e r) ∧
     (∃ t, exec (.mulw e d a b) s = .next t ∧ OnlyRegs e s t ∧
       (t.gval e (d + 1) ++ t.gval e d : BitVec (24 + 24)) = x.signExtend (24 + 24) * y.signExtend (24 + 24) ∧
       ∀ r, r ≠ d → r ≠ d + 1 → t.gval e r = s.gval e r))

/-- The address registers and the constant store: every use and every update of an address register follows the circular
rule (08 R196), and SETC resets the feed ring (08 R188).
The two instructions that follow a branch, JAL or JR execute whether or not it is taken; execution continues at the
target, or past them, after the second (08 R200). JAL puts pc + 3 into g15.
REPEAT and REPEATG execute the LEN instructions that follow COUNT times and continue after the body; a COUNT or LEN of 0
runs nothing (08 R200). The body here is NOPs, `m` of which have executed. RDLC reads the iterations still to run, counting
the current one. -/
def Obligations.EngineAddressingAndBranches : Prop :=
  (∀ (s : State) (e d k b c imm : Nat) (i : Int), s.seqReady e = true →
     let g := s.eng e
     let rule := fun (v : Int) =>
       if g.len k = 0 then (g.base k : Int) else (g.base k : Int) + (v - (g.base k : Int)) % (g.len k : Int)
     let eff := (rule (tget g.a k 0 : Nat)).toNat
     (∃ t, exec (.movga e d k) s = .next t ∧ SetsReg e d (BitVec.ofNat 24 eff) s t) ∧
     (∃ t, exec (.movag e k b) s = .next t ∧ OnlyEngine e s t ∧
       Sequenced { g with a := tput g.a k ((s.gval e b).toNat % 2 ^ 16) } (t.eng e)) ∧
     (∃ t, exec (.adda e k i) s = .next t ∧ OnlyEngine e s t ∧
       Sequenced { g with a := tput g.a k ((rule ((tget g.a k 0 : Nat) + i)).toNat % 2 ^ 16) } (t.eng e)) ∧
     (∃ t, exec (.setc e k b c) s = .next t ∧ OnlyEngine e s t ∧
       Sequenced { g with cb := tput g.cb k ((s.gval e b).toNat % 2 ^ 16), cl := tput g.cl k ((s.gval e c).toNat % 2 ^ 16),
                          a := tput g.a k ((s.gval e b).toNat % 2 ^ 16), rings := tput g.rings k { wpos := 0, fill := 0 } }
         (t.eng e)) ∧
     (∃ t, exec (.ldc e d k imm) s = .next t ∧
       SetsReg e d (BitVec.ofNat 24 (tget g.consts ((eff + imm) % 1024) 0)) s t) ∧
     (∃ t, exec (.stc e k b imm) s = .next t ∧ OnlyEngine e s t ∧
       Sequenced { g with consts := tput g.consts ((eff + imm) % 1024) (s.gval e b).toNat } (t.eng e))) ∧
  (∀ (s : State) (e r target : Nat), s.seqReady e = true → target < 4096 →
     let pc := (s.eng e).pc
     let goes := fun (i : Instr) (last : Nat) (link : Bool) => ∃ t u v,
       exec i s = .next t ∧ OnlyRegs e s t ∧ (t.eng e).pc = (pc + 1) % 4096 ∧
       exec (.nop e) t = .next u ∧ OnlyRegs e t u ∧ (u.eng e).pc = (pc + 2) % 4096 ∧
       exec (.nop e) u = .next v ∧ OnlyRegs e u v ∧ (v.eng e).pc = last ∧ (v.eng e).delay = none ∧
       ∀ k, v.gval e k = if link ∧ k = 15 then BitVec.ofNat 24 (pc + 3) else s.gval e k
     goes (.br e target) target false ∧
     goes (.bz e r target) (if s.gval e r = 0 then target else (pc + 3) % 4096) false ∧
     goes (.bnz e r target) (if s.gval e r = 0 then (pc + 3) % 4096 else target) false ∧
     goes (.bltz e r target) (if (s.gval e r).msb then target else (pc + 3) % 4096) false ∧
     goes (.bgez e r target) (if (s.gval e r).msb then (pc + 3) % 4096 else target) false ∧
     goes (.jal e target) target true ∧
     goes (.jr e r) ((s.gval e r).toNat % 4096) false) ∧
  (∀ (s : State) (e l len count r d m : Nat), s.seqReady e = true → (s.eng e).delay = none → (s.eng e).loops = [] →
     l < 2 → (s.eng e).pc + len < 4095 →
     let pc := (s.eng e).pc
     let goes := fun (i : Instr) (count : Nat) =>
       ∃ t, exec i s = .next t ∧ OnlyRegs e s t ∧ (∀ k, t.gval e k = s.gval e k) ∧
         (m ≤ count * len → ((afterNops e m t).eng e).pc =
             if m = count * len then pc + 1 + len else pc + 1 + m % len) ∧
         (m < count * len → ∃ u, exec (.rdlc e d l) (afterNops e m t) = .next u ∧
             u.gval e d = BitVec.ofNat 24 (count - m / len))
     goes (.repeatLoop e l len count) count ∧ goes (.repeatLoopG e l len r) ((s.gval e r).toNat % 2 ^ 16))

/-- NOP changes nothing but where the sequencer stands: the next address, outside delay slots and REPEAT bodies.
An engine that is stopped, faulty, waiting in WAITO, stalled, absent or without power executes nothing.
WAITF goes on once the fill of its ring is at least min(N, clk), and otherwise stalls where it stands (08 Table 8.8).
FREEF lowers the fill of its ring by min(N, fill) once every pass issued earlier has streamed, and until then it is
remembered; PSYNC goes on once the queue is empty and every write-back is complete, and otherwise stalls (08 Table 8.8).
WAITO ends the act: the engine waits with its registers kept, until an act falls due (08 R202). -/
def Obligations.EngineWaits : Prop :=
  (∀ (s : State) (e : Nat), s.seqReady e = true →
     ∃ t, exec (.nop e) s = .next t ∧ OnlyEngine e s t ∧ Sequenced (s.eng e) (t.eng e) ∧
       ((s.eng e).delay = none → (s.eng e).loops = [] → (t.eng e).pc = ((s.eng e).pc + 1) % 4096)) ∧
  (∀ (s : State) (e d a b target : Nat), s.seqReady e = false →
     exec (.nop e) s = .next s ∧ exec (.add e d a b) s = .next s ∧ exec (.br e target) s = .next s ∧
     exec (.psync e) s = .next s ∧ exec (.waito e) s = .next s) ∧
  (∀ (s : State) (e k n : Nat), s.seqReady e = true →
     let fill := (tget (s.eng e).rings k {}).fill
     (min n ((s.eng e).len k) ≤ fill →
       ∃ t, exec (.waitf e k n) s = .next t ∧ OnlyEngine e s t ∧ Sequenced { s.eng e with stallLong := false } (t.eng e)) ∧
     (fill < min n ((s.eng e).len k) →
       ∃ t, exec (.waitf e k n) s = .next t ∧ OnlyEngine e s t ∧
         t.eng e = { s.eng e with stall := some (.waitf k n), stallSince := s.cycle, stallKind := 2, stallLong := false })) ∧
  (∀ (s : State) (e k n : Nat), s.seqReady e = true →
     let g := s.eng e
     let r := tget g.rings k {}
     (g.issued ≤ g.streamed → ∃ t, exec (.freef e k n) s = .next t ∧ OnlyEngine e s t ∧
       Sequenced { g with rings := tput g.rings k { r with fill := r.fill - min n r.fill } } (t.eng e)) ∧
     (g.streamed < g.issued → ∃ t, exec (.freef e k n) s = .next t ∧ OnlyEngine e s t ∧
       Sequenced { g with frees := g.frees ++ [(g.issued, k, n)] } (t.eng e)) ∧
     (g.queue = [] → g.stream = none → g.writeBack = [] → ∃ t, exec (.psync e) s = .next t ∧ OnlyEngine e s t ∧
       Sequenced { g with stallLong := false } (t.eng e)) ∧
     (g.queue ≠ [] ∨ g.stream ≠ none ∨ g.writeBack ≠ [] → ∃ t, exec (.psync e) s = .next t ∧ OnlyEngine e s t ∧
       t.eng e = { g with stall := some .psync, stallSince := s.cycle, stallKind := 6, stallLong := false })) ∧
  (∀ (s : State) (e : Nat), s.seqReady e = true → (s.eng e).due = [] →
     ∃ t, exec (.waito e) s = .next t ∧ OnlyEngine e s t ∧
       t.eng e = { s.eng e with waito := true, act := none, syncPoint := false, pc := ((s.eng e).pc + 1) % 4096 })

/-- The slot instructions find their slot not BUSY: TACQ binds it, with H = 1 taking the DELIVERED token of its own
generation; TREL frees it and sets the tile's token to RELEASED; TCLR clears its records and flags (08 R194, Table 8.8).
TREL, TCLR, PASS and BPASS that find their slot BUSY stall, the conflict counter counts it and cause TILE_CONFLICT is set
(08 R192); TACQ stalls too, without that count, and with H = 1 until its token is DELIVERED (08 R194). -/
def Obligations.EngineSlots : Prop :=
  (∀ (s : State) (e i gt gc : Nat), s.seqReady e = true → i < 42 → ((s.eng e).slot i).busyBy = 0 →
     let tile := (s.gval e gt).toNat % 2 ^ 14
     let x := (s.eng e).slot i
     let bound := { x with tile := tile, chan := (s.gval e gc).toNat % 2 ^ 16, valid := true, tokenWait := false }
     (∃ t, exec (.tacq e i gt gc false) s = .next t ∧ OnlyEngine e s t ∧
       Sequenced { s.eng e with slots := tput (s.eng e).slots i bound, stallLong := false } (t.eng e)) ∧
     (tile ≤ 8255 → s.token tile = { state := 2, gen := (s.eng e).gen % 256 } →
       ∃ t, exec (.tacq e i gt gc true) s = .next t ∧ (t.eng e).slot i = bound ∧ t.token tile = { state := 0, gen := 0 } ∧
         t = { s with engines := t.engines, car := { s.car with tokens := t.car.tokens } } ∧
         (∀ k, k ≠ e → t.eng k = s.eng k) ∧ ∀ k, k ≠ tile → t.token k = s.token k) ∧
     (x.tile ≤ 8255 → ∃ t, exec (.trel e i none) s = .next t ∧ (t.eng e).slot i = { x with valid := false } ∧
       t.token x.tile = { state := 1, gen := (s.eng e).gen % 256 } ∧
       t = { s with engines := t.engines, car := { s.car with tokens := t.car.tokens } } ∧
       (∀ k, k ≠ e → t.eng k = s.eng k) ∧ ∀ k, k ≠ x.tile → t.token k = s.token k) ∧
     (∃ t, exec (.tclr e i) s = .next t ∧ OnlyEngine e s t ∧
       Sequenced { s.eng e with
         slots := tput (s.eng e).slots i { x with records := [], overflow := false, poisoned := false }
         stallLong := false } (t.eng e) ∧
       ∀ m, tget ((t.eng e).slot i).records m {} = { re := 0, im := 0, weight := 0 })) ∧
  (∀ (s : State) (e i k kr gs gt gc : Nat) (real ir ic h : Bool), s.seqReady e = true → s.pwr.low < 2 → i < 42 →
     let g := s.eng e
     (((g.slot i).busyBy ≠ 0 ∧ g.queue.length < 2) → ∀ c ∈ [Instr.trel e i none, .tclr e i, .pass e kr k i gs real ir ic,
         .bpass e k i ic], ∃ t, exec c s = .next t ∧ (t.eng e).stall ≠ none ∧ (t.eng e).pc = g.pc ∧
       (t.eng e).slots = g.slots ∧ tget (t.eng e).counters 8 0 = satAdd 32 (tget g.counters 8 0) 1 ∧
       bit (t.eng e).cause 4 = true) ∧
     ((g.slot i).busyBy ≠ 0 → ∃ t, exec (.tacq e i gt gc h) s = .next t ∧ OnlyEngine e s t ∧
       t.eng e = { g with stall := some (.tacq i gt gc h), stallSince := s.cycle, stallKind := 4, stallLong := false }) ∧
     ((g.slot i).busyBy = 0 → (s.token ((s.gval e gt).toNat % 2 ^ 14)).state ≠ 2 →
       ∃ t, exec (.tacq e i gt gc true) s = .next t ∧ OnlyEngine e s t ∧ (t.eng e).stall = some (.tacq i gt gc true) ∧
         (t.eng e).pc = g.pc ∧ ((t.eng e).slot i).tokenWait = true ∧ ((t.eng e).slot i).valid = (g.slot i).valid))

/-- PASS issues one pass to the queue: its slot becomes BUSY, it will stream L lines from eff(KR) and eff(KC), and IR and IC
advance their address registers by L (08 R199).
DKICK raises the peripheral request count of its DMA channel by one; at a count of 255 it stalls (12 R292). -/
def Obligations.EnginePassAndKick : Prop :=
  (∀ (s : State) (e kr kc i gs : Nat) (real ir ic : Bool), s.seqReady e = true → i < 42 →
     ((s.eng e).slot i).busyBy = 0 → (s.eng e).queue.length < 2 →
     let g := s.eng e
     let n := (s.engProg e).passLines
     ∃ t, exec (.pass e kr kc i gs real ir ic) s = .next t ∧ OnlyEngine e s t ∧
       (t.eng e).queue = g.queue ++ [{ beam := false, row := g.streamOf kr, col := g.streamOf kc, lines := n, slot := i
                                       scale := max (-64) (min 64 (s.gval e gs).toInt), real := real
                                       spw := (s.engProg e).spw, number := g.issued + 1 }] ∧
       (t.eng e).issued = g.issued + 1 ∧ ((t.eng e).slot i) = { g.slot i with busyBy := 1 } ∧
       (∀ j, j ≠ i → (t.eng e).slot j = g.slot j) ∧ (∀ r, t.gval e r = s.gval e r) ∧
       (t.eng e).a = (let x := if ir then g.advanceAddr kr n else g
                      if ic then x.advanceAddr kc n else x).a) ∧
  (∀ (s : State) (e ch : Nat), s.seqReady e = true →
     let n := (s.dch ch).reqCount
     (n < 255 → ∃ t, exec (.dkick e ch) s = .next t ∧ t.dch ch = { s.dch ch with reqCount := n + 1 } ∧
       (∀ c, c ≠ ch → t.dch c = s.dch c) ∧ (∀ k, k ≠ e → t.eng k = s.eng k) ∧
       Sequenced { s.eng e with stallLong := false } (t.eng e) ∧
       t = { s with engines := t.engines, dma := { s.dma with channels := t.dma.channels } }) ∧
     (255 ≤ n → ∃ t, exec (.dkick e ch) s = .next t ∧ OnlyEngine e s t ∧ (t.eng e).stall = some (.dkick ch) ∧
       (t.eng e).pc = (s.eng e).pc))

/-- While stage 2 is not in force, BLOAD loads the 16 lines from eff(K) as the weights of rows 0 to 15, and BPASS issues a
beam pass of one granule over the column stream with the set's SCALE (10 R232, R233).
While stage 2 is in force, BLOAD and BPASS retire without effect, and the BPASS sets bit 31 of every
record weight in its slot (10 R242). -/
def Obligations.BeamPasses : Prop :=
  (∀ (s : State) (e k i : Nat) (inc : Bool), s.seqReady e = true → s.pwr.low < 2 →
     let g := s.eng e
     ((∀ p ∈ g.queue, p.beam = false) → (∀ p, g.stream = some p → p.beam = true) →
       ∃ t, exec (.bload e k inc none) s = .next t ∧ OnlyEngine e s t ∧
         (t.eng e).weights = (List.range 16).flatMap (fun r =>
           (g.lineAt ((g.streamOf k).line r)).map fun w => (toSigned 12 (w / 2 ^ 12), toSigned 12 w)) ∧
         (t.eng e).badWeights = ((List.range 16).findSome? fun r => tfind g.bad ((g.streamOf k).line r)).map (·.1) ∧
         (t.eng e).a = (if inc then (g.advanceAddr k 16).a else g.a)) ∧
     (i < 42 → (g.slot i).busyBy = 0 → g.queue.length < 2 →
       ∃ t, exec (.bpass e k i inc) s = .next t ∧ OnlyEngine e s t ∧
         (t.eng e).queue = g.queue ++ [{ beam := true, row := g.streamOf k, col := g.streamOf k
                                         lines := 16 / (s.engProg e).spw, slot := i, scale := s.boundScale e, real := false
                                         spw := (s.engProg e).spw, set := g.beamSet, number := g.issued + 1 }] ∧
         (t.eng e).slot i = { g.slot i with busyBy := 1 } ∧
         (t.eng e).a = if inc then (g.advanceAddr k (16 / (s.engProg e).spw : Nat)).a else g.a)) ∧
  (∀ (s : State) (e k i : Nat) (inc : Bool), s.seqReady e = true → 2 ≤ s.pwr.low → i < 42 →
     (∃ t, exec (.bload e k inc none) s = .next t ∧ OnlyEngine e s t ∧
       Sequenced { s.eng e with stallLong := false } (t.eng e)) ∧
     ∃ t, exec (.bpass e k i inc) s = .next t ∧ OnlyEngine e s t ∧ (t.eng e).queue = (s.eng e).queue ∧
       (t.eng e).a = (s.eng e).a ∧ ((t.eng e).slot i).busyBy = ((s.eng e).slot i).busyBy ∧
       ∀ m, m < 256 → let r := tget ((s.eng e).slot i).records m {}
         tget ((t.eng e).slot i).records m {} = { r with weight := r.weight ||| 2 ^ 31 })

/-- The array: a queued pass starts once the array is free and, its lines being there and sound, streams to its sums, its cycles
counted, a beam pass with the weights that it copies as it starts (10 R232); its write-back adds them to the slot's records in
ascending cell order, through `spread` (09 R211, R212, R215), counts the pass and frees the slot (08 R192, R199).
A pass that reads a line or a validity vector whose parity fails aborts and waits for its replay; at the third failure its slot
is poisoned: every record a NaN with weight 0 (09 R224, R225, R227). PASS_REPLAY reads the replay blocks again once CT_READ is granted
their bytes (07 R170), after which nothing that the pass reads is marked bad, and streams it again, a beam pass with the weights that
it holds. -/
def Obligations.ArrayPasses : Prop :=
  (∀ (s : State) (e : Nat) (p : ArrayPass) (rest : List ArrayPass), s.engLive e = true →
     let g := s.eng e
     (s.stopAsked e = false → g.queue = p :: rest → g.stream = none → passFed g p = true → badLine g p = none →
       ∃ t, exec (.passStreamStart e []) s = .next t ∧ OnlyEngine e s t ∧ (t.eng e).queue = rest ∧
         (t.eng e).lastSlot = p.slot ∧ (t.eng e).streamed = p.number ∧ (t.eng e).slots = g.slots ∧
         ∃ q, (t.eng e).stream = some q ∧ q.slot = p.slot ∧ q.number = p.number ∧
           q.sums = (if p.beam then beamSums g { p with weights := g.weights } else correlate g p) ∧
           tget (t.eng e).counters 2 0 = satAdd 32 (tget g.counters 2 0) (p.cycles p.lines)) ∧
     (g.writeBack = p :: rest → g.waito = false ∨ g.due = [] → (g.slot p.slot).poisoned = false → p.slot < 42 → p.badWeights = none →
       let sum := fun m => addSum p.scale (tget (g.slot p.slot).records m {}) (p.sums.getD m (0, 0, 0))
       (∀ m, m < 256 → (spread (sum m)).2.2 = false) →
       ∃ t, exec (if p.beam then .bpassWriteBack e none else .passWriteBack e none) s = .next t ∧
         (t.eng e).writeBack = rest ∧ ((t.eng e).slot p.slot).busyBy = 0 ∧
         (∀ m, m < 256 → tget ((t.eng e).slot p.slot).records m {} = (spread (sum m)).1) ∧
         (∀ j, j ≠ p.slot → (t.eng e).slot j = g.slot j) ∧
         (((t.eng e).slot p.slot).overflow = true ↔
           (g.slot p.slot).overflow = true ∨ ∃ m, m < 256 ∧ (spread (sum m)).2.1 = true) ∧
         tget (t.eng e).counters (if p.beam then 1 else 0) 0 = satAdd 32 (tget g.counters (if p.beam then 1 else 0) 0) 1)) ∧
  (∀ (s : State) (e a b : Nat) (p : ArrayPass) (rest : List ArrayPass), s.engLive e = true →
     let g := s.eng e
     (s.stopAsked e = false → g.queue = p :: rest → g.stream = none → g.bad = [] → passFed g p = true →
       p.replays = 0 → p.slot < 42 → a ∈ p.keys →
       ∃ t, exec (.passStreamStart e [(a, b)]) s = .next t ∧ (t.eng e).replaying = true ∧ bit (t.eng e).cause 1 = true ∧
         ((t.eng e).slot p.slot).replays = 1 ∧ (t.eng e).streamed = g.streamed ∧
         tget (t.eng e).counters 12 0 = satAdd 32 (tget g.counters 12 0) 1) ∧
     (g.stream = some p → g.replaying = true → s.granted 1 (replayBytes s e p) = true → g.starved = false → passFed g p = true →
       ∃ t q, exec (.passReplay e []) s = .next t ∧ (t.eng e).replaying = false ∧ (∀ x ∈ (t.eng e).bad, x.1 ∉ p.keys) ∧
         (t.eng e).stream = some q ∧ q.slot = p.slot ∧ q.number = p.number ∧
         q.sums = if p.beam then beamSums (t.eng e) p else correlate (t.eng e) p) ∧
     (g.stream = some p → g.replaying = true → p.replays = 2 → p.slot < 42 → s.granted 1 (replayBytes s e p) = true → g.starved = false →
       passFed g p = true → g.bad = [] → a ∈ p.keys → (g.slot p.slot).poisoned = false →
       ∃ t, exec (.passReplay e [(a, b)]) s = .next t ∧ (t.eng e).stream = none ∧ (t.eng e).replaying = false ∧
         ((t.eng e).slot p.slot).poisoned = true ∧ ((t.eng e).slot p.slot).overflow = false ∧
         ((t.eng e).slot p.slot).busyBy = 0 ∧ ∀ m, m < 256 →
           tget ((t.eng e).slot p.slot).records m {} = { re := nan32, im := nan32, weight := 0 }))

/-- A stalled instruction proceeds once what it waited for is there, and the cycles of the stall are counted by its cause
(08 R192, R206); a stop request takes effect at an interruptible point once no pass streams or is in write-back (08 R201); a feed
or token wait longer than ENG_STALL_WARN_US sets its cause (08 R205); the causes written as 1 clear (15 R360).
A store word whose parity fails is replaced by that of the image, which the HBM slot of the engine's generation holds, and the
sequencer continues, with cause STORE_REPAIRED; a second failure at the address within the act stops the sequencer with cause
STORE_PARITY (08 R203; 11 R247). -/
def Obligations.EngineEvents : Prop :=
  (∀ (s : State) (e dt mask : Nat) (op : EngOp),
     let g := s.eng e
     (s.engLive e = true → s.seqStops e = false → g.starved = false → g.stall = some op → engWaits s e op = none → g.stallKind = 2 →
       ∃ t, exec (.engineStallResume e) s = .next t ∧ (t.eng e).stall = none ∧
         tget (t.eng e).counters 4 0 = satAdd 32 (tget g.counters 4 0) (s.cycle - g.stallSince)) ∧
     (s.engLive e = true → s.stopAsked e = true → g.stopped = false → g.interruptible = true → g.stream = none →
       g.writeBack = [] →
       ∃ t, exec (.engineStop e) s = .next t ∧ (t.eng e).stopped = true ∧ bit (t.eng e).cause 0 = true ∧
         (t.eng e).pc = g.pc ∧ (t.eng e).g = g.g ∧ (t.eng e).slots = g.slots) ∧
     (g.stall ≠ none → g.stallLong = false → g.stallKind = 2 ∨ g.stallKind = 3 →
       g.stallSince + s.eff 0x0800 * 1000 < s.cycle + dt →
       ∃ t, exec (.engStallWarn e dt) s = .next t ∧ (t.eng e).stallLong = true ∧
         bit (t.eng e).cause (g.stallKind + 3) = true ∧ (t.eng e).stall = g.stall) ∧
     (e < enginesOf s.fuses.variant → s.dmaLive = true → ∃ t, exec (.engineCauseW1c e mask) s = .next t ∧ OnlyEngine e s t ∧
       t.eng e = { g with cause := (t.eng e).cause } ∧ ∀ b, bit (t.eng e).cause b = (bit g.cause b && !bit mask b)) ∧
     (s.dmaLive = false → exec (.engineCauseW1c e mask) s = .next s)) ∧
  (∀ (s : State) (e addr b : Nat) (const : Bool), s.engLive e = true → (s.eng e).fault = false → s.hbm.state = 0 →
     let key := if const then 4096 + addr % 1024 else addr % 4096
     (key ∉ (s.eng e).refetched → ∃ t, exec (.storeRefetch e const addr b) s = .next t ∧
       (t.eng e).refetched = key :: (s.eng e).refetched ∧ (t.eng e).fault = false ∧ bit (t.eng e).cause 8 = true ∧
       tget (t.eng e).counters 14 0 = satAdd 32 (tget (s.eng e).counters 14 0) 1 ∧ (t.eng e).pc = (s.eng e).pc ∧
       (∀ c w, imageCode s e = some c → const = true → c.consts[addr % 1024]? = some w →
         (t.eng e).code = (s.eng e).code ∧ tget (t.eng e).consts (addr % 1024) 0 = w ∧
           ∀ k, k ≠ addr % 1024 → tget (t.eng e).consts k 0 = tget (s.eng e).consts k 0) ∧
       (∀ c w, imageCode s e = some c → const = false → c.code[addr % 4096]? = some w →
         (t.eng e).consts = (s.eng e).consts ∧ (t.eng e).code = (s.eng e).code.set (addr % 4096) w) ∧
       (imageCode s e = none → (t.eng e).code = (s.eng e).code ∧ (t.eng e).consts = (s.eng e).consts)) ∧
     (key ∈ (s.eng e).refetched → ∃ t, exec (.storeRefetch e const addr b) s = .next t ∧ (t.eng e).fault = true ∧
       bit (t.eng e).cause 7 = true ∧ ∀ i, i < 42 → ((s.eng e).slot i).valid = true → ((t.eng e).slot i).poisoned = true))

/-! ### The command protocol (13) -/

/-- HELLO opens a free slot, bound to its transport and source, with H at its SEQ, gives it the role asked for and answers
with the session's id (13 R308, R309); the free slot taken is the model's choice (log entry 11).
IDENTIFY reports the device, ECHO returns its data, and GOODBYE closes its session once its reply has been sent
(00 R2; 13 R310, Table 13.6). -/
def Obligations.SessionCommands : Prop :=
  (∀ (s : State) (h : CmdHdr) (p : Bytes) (u i : Nat),
     let role := fld p 0 1
     let timeout := fld p 2 2
     s.carries h.origin = true → s.server = some u → s.cmd.queue = [] → h.toStandby = false → h.session = 0 → s.resentHello h = none → p.length = 20 →
     role ≤ 1 → fld p 1 1 ≤ 1 → 10 ≤ timeout → timeout ≤ 3600 → s.freeSession = some i →
     (role = 1 → s.controllerSlot ≠ none → fld p 1 1 = 1) →
     conditionCheck { hdr := h, op := .hello, p := p, unit := u } none s = none →
     ∃ t r, exec (.hello h p) s = .next t ∧
       (t.session i).isOpen = true ∧ (t.session i).origin = some h.origin ∧ (t.session i).controller = (role == 1) ∧
       (t.session i).timeoutS = timeout ∧ (t.session i).high = h.seq.toNat ∧
       (t.session i).incarnation = nextIncarnation (s.session i).incarnation ∧
       (∀ j, role = 1 → s.controllerSlot = some j → (t.session j).controller = decide (j = i)) ∧
       (t.session i).helloReply = some r ∧ r.status = .ok ∧
       r.params = be 2 ((t.session i).incarnation * 8 + i) ++ be 1 role ++ be 1 u ++ be 4 s.cmd.bootId) ∧
  (∀ (s : State) (h : CmdHdr) (p : Bytes) (slot u : Nat),
     (Admitted s h .identify p slot u → ∃ t b, exec (.identify h p) s = .next t ∧ Replied h .identify slot b t ∧
       slice b 0 4 = [(match s.fuses.variant with | .gl2048 => 0 | .gl1024 => 1), s.fuses.stepping,
         (if s.fuses.keySet then 1 else 0), 0] ∧
       slice b 4 8 = be 8 s.fuses.serial.toNat ∧ slice b 12 4 = be 4 s.cmd.bootId ∧
       slice b 16 8 = be 4 (s.unit 0).firmware ++ be 4 (s.unit 1).firmware ∧ slice b 28 6 = be 6 s.fuses.macBase.toNat ∧
       t.cmd.journal = s.cmd.journal ∧ t.set = s.set) ∧
     (Admitted s h .echo p slot u → ∃ t, exec (.echo h p) s = .next t ∧ Replied h .echo slot p t ∧
       t.cmd.journal = s.cmd.journal ∧ t.set = s.set) ∧
     (Admitted s h .goodbye p slot u → ∃ t, exec (.goodbye h p) s = .next t ∧ (t.session slot).isOpen = false ∧
       (t.session slot).incarnation = (s.session slot).incarnation ∧ (∀ j, j ≠ slot → t.session j = s.session j) ∧
       t.findSession h.session.toNat h.origin = none ∧ t.newestJsn = s.cmd.nextJsn))

/-- GET_SETTING answers with a key's value from the layer asked for, or with its effective value and the layer that supplies
it; LIST_SETTINGS lists the keys of a layer in ascending order from FIRST (13 R318; 00 R9).
SET_SETTING puts a value that its rules allow into the runtime layer, which then supplies the effective value;
REVERT_SETTING takes one runtime value, or all of them, away; COMMIT_PRESET starts the write of a settings slot (00 R9, R10;
13 R318; 19 R423). -/
def Obligations.SettingCommands : Prop :=
  (∀ (s : State) (h : CmdHdr) (p : Bytes) (slot u : Nat),
     let key := fld p 0 2
     (Admitted s h .getSetting p slot u → (keyInfo s.fuses key).isSome = true → fld p 3 1 = 0 →
       (fld p 2 1 = 0 → ∃ t l, exec (.getSetting h p) s = .next t ∧
         Replied h .getSetting slot (be 2 key ++ be 1 l ++ [1] ++ be 8 (s.eff key)) t ∧
         l = (if thas s.set.runtime key then 1 else if thas s.set.image key then 2 else 3) ∧ t.set = s.set) ∧
       (fld p 2 1 = 1 → ∃ t, exec (.getSetting h p) s = .next t ∧ t.set = s.set ∧
         Replied h .getSetting slot (match tfind s.set.runtime key with
           | some v => be 2 key ++ [1, 1] ++ be 8 v
           | none => be 2 key ++ [1, 0] ++ be 8 0) t) ∧
       (fld p 2 1 = 2 → ∃ t, exec (.getSetting h p) s = .next t ∧ t.set = s.set ∧
         Replied h .getSetting slot (match tfind s.set.image key with
           | some v => be 2 key ++ [2, 1] ++ be 8 v
           | none => be 2 key ++ [2, 0] ++ be 8 0) t) ∧
       (fld p 2 1 = 3 → ∃ t, exec (.getSetting h p) s = .next t ∧ t.set = s.set ∧
         Replied h .getSetting slot (be 2 key ++ [3, 1] ++ be 8 (factoryField s.fuses key)) t)) ∧
     (Admitted s h .listSettings p slot u → fld p 0 1 ≤ 3 → fld p 1 1 = 0 → fld p 4 2 ≤ 745 → fld p 6 2 = 0 →
       let all := (layerEntries s (fld p 0 1)).filter fun e => decide (fld p 2 2 ≤ e.1)
       ∃ t, exec (.listSettings h p) s = .next t ∧ t.set = s.set ∧
         Replied h .listSettings slot (be 2 (min (fld p 4 2) all.length) ++
           be 2 (match all[fld p 4 2]? with | some e => e.1 | none => 0) ++
           (all.take (fld p 4 2)).flatMap fun e => be 2 e.1 ++ be 1 e.2.1 ++ [0] ++ be 8 e.2.2) t)) ∧
  (∀ (s : State) (h : CmdHdr) (p : Bytes) (slot u : Nat),
     let key := fld p 0 2
     let v := if key = 0x0B03 then fld p 4 8 ||| 1 else fld p 4 8
     (Admitted s h .setSetting p slot u → fld p 2 2 = 0 → valueOk s.fuses key (fld p 4 8) = true →
       keyRefused s (s.withRuntime (tput s.set.runtime key v)) key = none →
       ∃ t, exec (.setSetting h p) s = .next t ∧ Replied h .setSetting slot (be 2 key ++ [0, 0]) t ∧ t.eff key = v ∧
         (∀ k, k ≠ key → t.eff k = s.eff k) ∧ t.set.image = s.set.image ∧ t.fuses = s.fuses) ∧
     (Admitted s h .revertSetting p slot u → fld p 2 1 = 0 → fld p 3 1 = 0 → (keyInfo s.fuses key).isSome = true →
       (key < 0x0C00 ∨ 0x0C03 < key) → thas s.set.runtime key = true →
       keyRefused s (s.withRuntime (tdel s.set.runtime key)) key = none →
       ∃ t, exec (.revertSetting h p) s = .next t ∧ Replied h .revertSetting slot [0, 1, 0, 0] t ∧
         t.eff key = (match tfind s.set.image key with | some w => w | none => factoryField s.fuses key) ∧
         (∀ k, k ≠ key → t.eff k = s.eff k) ∧ t.set.image = s.set.image) ∧
     (Admitted s h .revertSetting p slot u → p = [0, 0, 1, 0] →
       firstRefused s (s.withRuntime []) (s.set.runtime.map (·.1)) = none →
       ∃ t, exec (.revertSetting h p) s = .next t ∧ t.set = { s.set with runtime := [] } ∧
         Replied h .revertSetting slot (be 2 s.set.runtime.length ++ [0, 0]) t) ∧
     (Admitted s h .commitPreset p slot u → fld p 1 1 = 0 → s.flashHeld = false →
       (fld p 0 1 = 0 → fld p 2 2 = 0 → ∃ t, exec (.commitPreset h p) s = .next t ∧ t.boot = s.boot ∧
         Started h .commitPreset slot (.commitPreset none) t) ∧
       (fld p 0 1 = 1 → (∀ k ∈ listedKeys p, thas s.set.runtime k = true) →
         ∃ t, exec (.commitPreset h p) s = .next t ∧ t.boot = s.boot ∧
           Started h .commitPreset slot (.commitPreset (some (listedKeys p))) t)))

/-- GET_STATE answers with the items of its selector from FIRST on, COUNT of them while they fit a reply, and with flag 0
changes nothing it reports (13 R317); the items' order and widths are the model's choice where the chapters give lists only
(log entries 10 and 38).
ENTER_POWER_STATE of the present state answers OK at once; toward a lower state it starts the handshake with its first
block (17 R382, R385). RESUME undoes the latched stages once the sag lies below stage 3's threshold minus hysteresis and a
tripped junction has cooled, and replies with the stage then in force, at once or, where the HBM has to train again, once it has
(17 R396, R397). -/
def Obligations.StateAndPowerCommands : Prop :=
  (∀ (s : State) (h : CmdHdr) (p : Bytes) (slot u size : Nat),
     let sel := fld p 0 1
     let first := fld p 2 2
     Admitted s h .getState p slot u → fld p 1 1 = 0 → fld p 6 2 = 0 → selectorSize s.fuses.variant sel = some size →
     first < size →
     let items := fitItems 8946 (((List.range (min (fld p 4 2) (size - first))).map (first + ·)).map
       fun i => (i, stateItemOf (s.heard h) sel i))
     ∃ t, exec (.getState h p) s = .next t ∧
       Replied h .getState slot (be 1 sel ++ [0] ++ be 2 items.length ++ items.flatMap (·.2)) t ∧
       t.cmd.journal = s.cmd.journal ∧ t.prg = s.prg ∧ t.engines = s.engines ∧ t.ing = s.ing ∧ t.ev = s.ev) ∧
  (∀ (s : State) (h : CmdHdr) (p : Bytes) (slot u b : Nat),
     let k := fld p 0 1
     (Admitted s h .enterPowerState p slot u → k ≤ 3 → fld p 1 3 = 0 → s.pwr.latched = [] →
       (s.pwr.state = powerOf k → ∃ t, exec (.enterPowerState h p) s = .next t ∧
         Replied h .enterPowerState slot [0, 0, 0, 0] t ∧ t.pwr = s.pwr) ∧
       (s.pwr.state ≠ powerOf k → s.boot.step = 0 → (handshakeBlocks s.pwr.state (powerOf k)).head? = some b →
         ∃ t, exec (.enterPowerState h p) s = .next t ∧ Started h .enterPowerState slot (.powerState k) t ∧
           t.pwr = { s.pwr with busy := true, commanded := true, target := powerOf k, block := b, agreed := [] })) ∧
     (Admitted s h .resume p slot u → s.pwr.sag < shedEnter s 3 - shedHyst s 3 →
       (s.pwr.tripped = true → s.pwr.junction < (s.threshold 0x0B09 : Nat)) →
       let trains := 4 ∈ s.pwr.latched ∧ s.pwr.state.awake = true ∧ s.hbm.state = 3
       ∃ t, exec (.resume h p) s = .next t ∧ t.pwr.latched = [] ∧ t.pwr.tripped = false ∧
         t.pwr.low = (if s.pwr.latched = [] then s.pwr.low else stageCalled s) ∧
         (¬trains → Replied h .resume slot (be 1 t.pwr.low ++ [0, 0, 0]) t) ∧
         (trains → Awaits h .resume slot t ∧ t.hbm.state = 2 ∧ t.pwr.hbmResume = true)) ∧
     (∀ r, s.boot.porstLow = false → s.pwr.wakeStep = 0 → s.pwr.hbmResume = true → s.hbm.state = 2 →
       s.cmd.awaited = some (some slot, r) →
       ∃ t, exec (.wakeStepComplete []) s = .next t ∧ t.hbm.state = 0 ∧ t.pwr.low = s.pwr.low ∧
         AwaitedReplies slot r .ok (be 1 s.pwr.stage ++ [0, 0, 0]) s t))

/-- LOAD_PROGRAMME has DMA channel 62 write its chunk into the slot's HBM, byte for byte, by a COPY that the device builds (12 R280,
R287), and replies with the burst that ends it: the slot is then LOADED once the whole image has been written, whose size stands in
bytes 12 to 15 of it, and LOADING before (11 R249); a chunk for a VALID or INVALID slot begins a new image (log entries 139 and
142).
The segment form of LOAD_PROGRAMME keeps the chunk of an unfinished assembly and touches no slot (11 R277). -/
def Obligations.ProgrammeLoading : Prop :=
  (∀ (s : State) (h : CmdHdr) (p : Bytes) (slot u : Nat),
     let i := fld p 1 1
     let off := fld p 4 4
     let data := p.drop 8
     let base := slotBase s.fuses.variant i
     let judged := (s.slot i).state == .valid || (s.slot i).state == .invalid
     let got := addRun off (off + data.length) (if judged then [] else (s.slot i).received)
     let size := fld ((s.hbmWrite (base + off) (data.take (16 - off))).hbmRead base 16) 12 4
     i ≤ 2 → (s.slot i).state.held = false → off + data.length ≤ maxImage → 1 ≤ data.length → data.length ≤ 8192 →
     (Admitted s h .loadProgramme p slot u → fld p 0 1 = 0 → fld p 2 2 = 0 → s.boot.hbmFailed = false → s.hbm.state = 0 →
       s.portShare 2 ≠ some 0 → s.working (fun w => w == .validate i) = false →
       (runsCover got 16 = true → off + data.length ≤ size) → (s.dch 62).state ≠ 1 → (s.dch 62).state ≠ 3 →
       ∃ t, exec (.loadProgramme h p) s = .next t ∧ Awaits h .loadProgramme slot t ∧
         t.prg.loading = some (.image i off data) ∧ (t.dch 62).state = 1 ∧
         (t.dch 62).desc = some (internalDesc 0 (s.eff 0x0A01) data.length 0 (base + off) true 1) ∧
         t.hbm = s.hbm ∧ t.prg.slots = s.prg.slots) ∧
     (∀ (r : Reply) (dt share : Nat) (b : DmaBurst) (rest : List Nat), let x := s.dch 62
       memWf 0 s.hbm.mem = true → s.prg.loading = some (.image i off data) → s.cmd.awaited = some (some slot, r) →
       s.dmaLive = true → s.dma.order = 62 :: rest → writeWaits (s.advance dt) = false → x.waiting = [] → x.hbmBad = false →
       x.desc = some (internalDesc 0 share data.length 0 (base + off) true 1) → x.inFlight = [b] → b.data.length = b.length →
       b.offset + b.length = data.length → x.written = b.offset → s.working (fun w => w == .dmaStop 62) = false →
       let full := runsCover got 16 && runsCover got size
       ∃ t, exec (.dmaBurstComplete dt) s = .next t ∧ t.prg.loading = none ∧
         AwaitedReplies slot r .ok (be 4 (runBytes got) ++ be 1 (if full then SlotState.loaded else .loading).ctorIdx ++ [0, 0, 0]) s t ∧
         t.slot i = { state := if full then .loaded else .loading, received := got
                      imageSize := if runsCover got 16 then some size else none } ∧
         (∀ k, k < b.length → t.hbmGet (base + off + b.offset + k) = b.data.getD k 0) ∧
         (∀ a, a < base + off + b.offset ∨ base + off + data.length ≤ a → t.hbmGet a = s.hbmGet a) ∧
         ∀ j, j ≠ i → t.slot j = s.slot j)) ∧
  (∀ (s : State) (h : CmdHdr) (p : Bytes) (slot u : Nat),
     let gen := fld p 4 4
     let off := fld p 8 4
     let total := fld p 12 4
     let data := p.drop 16
     Admitted s h .loadProgramme p slot u → fld p 0 1 = 1 → fld p 1 3 = 0 → s.boot.hbmFailed = false →
     off + data.length ≤ total → (s.prg.assemblies.find? fun a => a.generation == gen && a.total == total) = none →
     runsCover [(off, off + data.length)] total = false →
     ∃ t, exec (.loadProgrammeSegment h p) s = .next t ∧ t.prg.slots = s.prg.slots ∧ t.prg.segments = s.prg.segments ∧
       ∃ a, a ∈ t.prg.assemblies ∧ a.generation = gen ∧ a.total = total ∧ a.received = [(off, off + data.length)] ∧
         ∀ k, k < data.length → memGet 0 a.data (off + k) = data.getD k 0)

/-- VALIDATE_PROGRAMME starts on a LOADED slot (11 R266); ARM_PROGRAMME arms a VALID slot whose checks pass for its swap orbit
(11 R267); HALT_PROGRAMME returns an ARMED slot to VALID, or gives the programme in effect the orbit at which it ends; with
AT_ONCE every engine, the reader and ingest stop and the slot is RETIRING (11 R275). -/
def Obligations.ProgrammeCommands : Prop :=
  ∀ (s : State) (h : CmdHdr) (p : Bytes) (slot u : Nat) (q : Programme),
    let i := fld p 0 1
    let n := fld p 4 8
    (Admitted s h .validateProgramme p slot u → i ≤ 2 → fld p 1 3 = 0 → (s.slot i).state = .loaded →
      s.working (fun w => w == .validate i) = false →
      ∃ t, exec (.validateProgramme h p) s = .next t ∧ Started h .validateProgramme slot (.validate i) t ∧
        t.prg = s.prg) ∧
    (Admitted s h .armProgramme p slot u → i ≤ 2 → fld p 1 3 = 0 → s.boot.hbmFailed = false → (s.slot i).state = .valid →
      (s.slot i).prog = some q → s.slotIn .armed = none → firstFailure (armChecks s q n) = none →
      ∃ t, exec (.armProgramme h p) s = .next t ∧
        Replied h .armProgramme slot (be 4 q.generation ++ List.replicate 12 0) t ∧ (t.slot i).state = .armed ∧
        (t.slot i).swapOrbit = n ∧ (t.slot i).prog = some q ∧ ∀ j, j ≠ i → t.slot j = s.slot j) ∧
    (Admitted s h .haltProgramme p slot u → i ≤ 2 → fld p 1 1 = 0 → fld p 2 2 = 0 → (s.slot i).state = .armed →
      ∃ t, exec (.haltProgramme h p) s = .next t ∧ Replied h .haltProgramme slot [] t ∧
        t.slot i = { s.slot i with state := .valid } ∧ ∀ j, j ≠ i → t.slot j = s.slot j) ∧
    (Admitted s h .haltProgramme p slot u → i ≤ 2 → fld p 1 1 = 0 → fld p 2 2 = 0 → (s.slot i).state = .inEffect →
      (s.slot i).prog = some q → s.slotIn .armed = none → (∀ o, s.orb.oldest = some o → o + 4 ≤ n) →
      ∃ t, exec (.haltProgramme h p) s = .next t ∧ Replied h .haltProgramme slot [] t ∧
        t.slot i = { s.slot i with haltOrbit := some n, haltDump := false } ∧ ∀ j, j ≠ i → t.slot j = s.slot j) ∧
    (Admitted s h .haltProgramme p slot u → i ≤ 2 → fld p 1 1 = 1 → fld p 2 2 = 0 → (s.slot i).state = .inEffect →
      (s.slot i).prog = some q →
      ∃ t, exec (.haltProgrammeAtOnce h p) s = .next t ∧ Replied h .haltProgramme slot [] t ∧
        (t.slot i).state = .retiring ∧ (t.slot i).haltedAtOnce = true ∧ t.car.runs = [] ∧ t.orb.oldest = none ∧
        t.ct.frame = none ∧ t.stickyBit 1006 = true ∧
        ∀ e, (e, (s.eng e)) ∈ s.engines → (t.eng e).halted = true)

/-- TB_CONFIGURE writes a base's source, half-port, domain and transport together (02 R22); TB_STEP steps an UNSET base that
no PPS drives, and TB_RESTEP with FORM 0 a base with time: LOCKING from the time given, with the next epoch id (02 R28, R32,
R33); on a PPS base both wait for their edge, and so does TB_RESTEP with FORM 1 on any base.
TB_STATUS reports a base's state, epoch id and time (02 R48); TB_ALARM arms one of the 16 alarms at least 1 us ahead of a
base with time, and with MASK 0 disarms it (02 R46). -/
def Obligations.TimeBaseCommands : Prop :=
  (∀ (s : State) (h : CmdHdr) (p : Bytes) (slot u sec time : Nat),
     let n := fld p 0 1
     let rt := (List.range 4).foldl (fun t i => tput t (0x0500 + 16 * n + i) (fld p (1 + i) 1)) s.set.runtime
     (Admitted s h .tbConfigure p slot u → n ≤ 3 → fld p 5 3 = 0 →
       (∀ i, i < 4 → valueOk s.fuses (0x0500 + 16 * n + i) (fld p (1 + i) 1) = true) →
       cfgRate (s.hp (fld p 2 1)).trained = 0 →
       firstRefused s (s.withRuntime rt) ((List.range 4).map fun i => 0x0500 + 16 * n + i) = none →
       ∃ t, exec (.tbConfigure h p) s = .next t ∧ Replied h .tbConfigure slot [] t ∧
         (∀ i, i < 4 → t.tbKey n i = fld p (1 + i) 1) ∧
         (s.tbKey n 0 ≠ fld p 1 1 → (t.tb n).mode = (if fld p 1 1 = 0 then .disabled else .unset) ∧ (t.tb n).epoch = 0)) ∧
     (Admitted s h .tbStep p slot u → n ≤ 3 → fld p 1 1 = 0 → timeField p 2 = some (sec, time) → (s.tb n).mode = .unset →
       (s.tb n).stepWait = none →
       (s.onPps n = false → ∃ t b, exec (.tbStep h p) s = .next t ∧ Replied h .tbStep slot b t ∧
         (t.tb n).mode = .locking ∧ (t.tb n).count = time % tbWrap ∧
         (t.tb n).lastEpoch = nextEpochId (s.tb n).lastEpoch ∧ b = be 2 (t.tb n).lastEpoch ++ [0, 0]) ∧
       (s.onPps n = true → ∃ t, exec (.tbStep h p) s = .next t ∧ Started h .tbStep slot (.tbStep n) t ∧
         t.tb n = { s.tb n with stepWait := some (.first sec) })) ∧
     (Admitted s h .tbRestep p slot u → n ≤ 3 → timeField p 2 = some (sec, time) → (s.tb n).hasTime = true →
       (s.tb n).stepWait = none →
       (fld p 1 1 = 0 → s.onPps n = false → ∃ t b, exec (.tbRestep h p) s = .next t ∧ Replied h .tbRestep slot b t ∧
         (t.tb n).mode = .locking ∧ (t.tb n).count = time % tbWrap ∧
         (t.tb n).lastEpoch = nextEpochId (s.tb n).lastEpoch ∧
         b = be 2 (t.tb n).lastEpoch ++ [0, 0] ++ be 8 (ofSigned 64 (t.tb n).stepNs)) ∧
       (fld p 1 1 = 0 → s.onPps n = true → ∃ t, exec (.tbRestep h p) s = .next t ∧ Started h .tbRestep slot (.tbRestep n) t ∧
         t.tb n = { s.tb n with stepWait := some (.restep sec) }) ∧
       (fld p 1 1 = 1 → ∃ t, exec (.tbRestep h p) s = .next t ∧ Started h .tbRestep slot (.tbRestep n) t ∧
         t.tb n = { s.tb n with stepWait := some .measure }))) ∧
  (∀ (s : State) (h : CmdHdr) (p : Bytes) (slot u sec time : Nat),
     let n := fld p 0 1
     let mask := fld p 1 1
     let period := fld p 16 8
     (Admitted s h .tbStatus p slot u → n ≤ 3 → mask = 0 →
       ∃ t b, exec (.tbStatus h p) s = .next t ∧ Replied h .tbStatus slot b t ∧ t.tbs = s.tbs ∧
         b.take 16 = be 1 (s.tb n).mode.ctorIdx ++ [0] ++
           (match (s.tb n).mode with
            | .disabled | .unset => List.replicate 14 0
            | _ => be 2 (s.tb n).lastEpoch ++ timeBytes (s.tb n).count)) ∧
     (Admitted s h .tbAlarm p slot u → n ≤ 15 → fld p 3 1 = 0 → 1 ≤ mask → mask ≤ 7 →
       (period = 0 ∨ 1000 ≤ period ∧ period ≤ 10 ^ 12) → timeField p 4 = some (sec, time) →
       (s.tb (n / 4)).hasTime = true → (s.tb (n / 4)).count + 1000 * 2 ^ 32 ≤ time →
       ∃ t, exec (.tbAlarm h p) s = .next t ∧ Replied h .tbAlarm slot [] t ∧
         tfind t.alarms n = some { time := time, period := period, mask := mask, groups := fld p 2 1 } ∧
         ∀ k, k ≠ n → tfind t.alarms k = tfind s.alarms k) ∧
     (Admitted s h .tbAlarm p slot u → n ≤ 15 → fld p 3 1 = 0 → mask = 0 →
       ∃ t, exec (.tbAlarmDisarm h p) s = .next t ∧ Replied h .tbAlarm slot [] t ∧ tfind t.alarms n = none ∧
         ∀ k, k ≠ n → tfind t.alarms k = tfind s.alarms k))

/-- PORT_CONFIGURE writes a half-port's configuration and trains it again, or holds it, with the other half of a full port, in
electrical idle, or restarts the Management Port's link (03 R55, R56, R64); PORT_STATUS reports, in the order of log entry 10;
LANE_LOOPBACK loops every half-port of the port back, but for one in FAULT (03 R59, R67; log entry 124); LANE_EYE starts a full
scan (03 R63). -/
def Obligations.PortCommands : Prop :=
  ∀ (s : State) (h : CmdHdr) (p : Bytes) (slot u : Nat),
    let n := fld p 0 1
    let cfg := fld p 4 4
    (Admitted s h .portConfigure p slot u → fld p 1 1 ≤ 1 → fld p 2 2 = 0 → n < halfPortsOf s.fuses.variant →
      hpConfigOk cfg = true → (fld p 1 1 = 1 → canIdle cfg = true) → pairOk cfg (s.hpConfig (partnerOf n)) = true →
      s.hpUsed n = false → s.portBusy (s.hpGroup n ++ (configured n false cfg s).cfgGroup n) = false →
      ∃ t, exec (.portConfigure h p) s = .next t ∧ Replied h .portConfigure slot [] t ∧ t.hpConfig n = cfg ∧
        (∀ k, k ≠ 0x0200 + n → t.eff k = s.eff k) ∧ (t.hp n).loopKind = 0 ∧
        (fld p 1 1 = 1 → (s.hp n).stopped = false → t.waitsPartner n = false →
          (∀ k ∈ t.cfgGroup n, (t.hp k).state = .idle ∧ (t.hp k).txIdle = true) ∧ (t.hp n).trained = cfg) ∧
        (fld p 1 1 = 1 → (s.hp n).stopped = false → t.waitsPartner n = true → (t.hp n).state = .off) ∧
        (fld p 1 1 = 0 → (s.hp n).stopped = false → s.refsLost.contains (n / 16) = false →
          (t.hp n).state = (if cfgMode cfg = 0 ∨ t.waitsPartner n = true then .off else .training) ∧
          (t.hp n).trained = cfg)) ∧
    (Admitted s h .portConfigure p slot u → n = 0xFF → fld p 1 1 = 0 → fld p 2 2 = 0 →
      ∃ t, exec (.portConfigure h p) s = .next t ∧ Replied h .portConfigure slot [] t ∧ t.mp.state = .training ∧
        t.mp.mode = s.eff 0x0290 ∧ t.mp.an = s.eff 0x0291 ∧ t.mp.txPre = s.eff 0x0294 ∧ t.mp.txPost = s.eff 0x0295 ∧
        t.hps = s.hps) ∧
    (Admitted s h .portStatus p slot u → fld p 1 1 = 0 → fld p 2 2 = 0 → n < halfPortsOf s.fuses.variant →
      ∃ t, exec (.portStatus h p) s = .next t ∧ Replied h .portStatus slot (hpStatus n (s.hp n) (s.hp (s.linkOf n)).mw) t ∧ t.hps = s.hps) ∧
    (Admitted s h .laneLoopback p slot u → n < halfPortsOf s.fuses.variant → 1 ≤ fld p 1 1 → fld p 1 1 ≤ 3 →
      fld p 2 2 = 0 → s.hpUsed n = false → (s.hp n).stopped = false → s.portBusy (s.hpGroup n) = false →
      ∃ t, exec (.laneLoopback h p) s = .next t ∧ Replied h .laneLoopback slot [] t ∧
        (∀ k ∈ s.hpGroup n, (t.hp k).state = (if (s.hp k).state = .fault then .fault else .loopback) ∧
          (t.hp k).loopKind = fld p 1 1) ∧
        ∀ k, k ∉ s.hpGroup n → t.hp k = s.hp k) ∧
    (Admitted s h .laneEye p slot u →
      let lane := fld p 0 2
      lane < 4 * halfPortsOf s.fuses.variant → fld p 2 2 = 0 →
      (s.hp (lane / 4)).state ∈ [LinkState.training, .up, .loopback, .test] → (s.hp (lane / 4)).scanLane = none →
      ∃ t, exec (.laneEye h p) s = .next t ∧ Started h .laneEye slot (.laneEye lane) t ∧
        t.hp (lane / 4) = { s.hp (lane / 4) with scanLane := some (lane % 4) } ∧
        ∀ k, k ≠ lane / 4 → t.hp k = s.hp k)

/-- DMA_SUBMIT writes host descriptors (12 R283); DMA_LINK appends to the descriptor that the channel is at, or answers
that the chain has passed it (12 R296); DMA_STOP puts a running host channel into STOPPING, and answers for one at rest
(12 R294). -/
def Obligations.DmaCommands : Prop :=
  ∀ (s : State) (h : CmdHdr) (p : Bytes) (slot u : Nat),
    let c := fld p 0 1
    let x := s.dch c
    (Admitted s h .dmaSubmit p slot u →
      let first := fld p 2 2
      let count := fld p 4 2
      let inline := p.drop (8 + 32 * count)
      let desc := fun i => slice p (8 + 32 * i) 32
      c ≤ 60 → fld p 1 1 = 0 → first + count ≤ 4096 → s.progOwned c = false → memWf 0 s.bus.sram = true →
      (∀ i, i < count → hostDescOk s.fuses.variant inline.length (desc i) = true) →
      ∃ t, exec (.dmaSubmit h p) s = .next t ∧ Replied h .dmaSubmit slot (be 2 x.current ++ [0, 0]) t ∧
        (∀ i, i < count → memRead 0 t.bus.sram (32 * (first + i)) 32 = desc i) ∧
        (∀ a, a < 32 * first ∨ 32 * (first + count) ≤ a → memGet 0 t.bus.sram a = memGet 0 s.bus.sram a) ∧
        t.dma.channels = s.dma.channels) ∧
    (Admitted s h .dmaLink p slot u →
      let e := fld p 2 2
      let a := fld p 4 2
      c ≤ 60 → e ≤ 4095 → a ≤ 4095 → s.progOwned c = false →
      (∀ d, x.desc = some d → x.current = e →
        ∃ t, exec (.dmaLink h p) s = .next t ∧ Replied h .dmaLink slot [0, 0, 0, 0] t ∧
          t.dch c = { x with desc := some (linkTo d a) } ∧ ∀ k, k ≠ c → t.dch k = s.dch k) ∧
      (x.desc = none ∨ x.current ≠ e → ¬(x.state = 5 ∧ x.current = e) → ¬(x.state = 6 ∧ x.current = e) →
        dEnd (s.hostDesc e) = true →
        ∃ t, exec (.dmaLink h p) s = .next t ∧ Replied h .dmaLink slot [2, 0, 0, 0] t ∧
          t.dma.channels = s.dma.channels)) ∧
    (Admitted s h .dmaStop p slot u → c ≤ 60 → s.progOwned c = false →
      ((x.state = 1 ∨ x.state = 3) → x.desc ≠ none → ∃ t, exec (.dmaStop h p) s = .next t ∧ Started h .dmaStop slot (.dmaStop c) t ∧
        t.dch c = { x with state := 3, stopping := true } ∧ ∀ k, k ≠ c → t.dch k = s.dch k) ∧
      (x.state ≠ 1 → x.state ≠ 3 → ∃ t, exec (.dmaStop h p) s = .next t ∧
        Replied h .dmaStop slot (be 1 x.stateCode ++ [0] ++ be 2 x.current) t ∧ t.dma = s.dma))

/-- HBM_STATUS reports the snapshot, the capture and the held requests (07 R177); HBM_THAW lets a frozen controller run again
and its held requests resume, the failing granule marked bad unless its error was of CA parity (07 R178); CAPTURE_FREEZE
triggers an ARMED capture and, with RELEASE, returns a FROZEN one that no dump reads to ARMED; CAPTURE_DUMP starts on a FROZEN one, and
is answered at once where no packet is due (07 R167). -/
def Obligations.HbmCommands : Prop :=
  ∀ (s : State) (h : CmdHdr) (p : Bytes) (slot u : Nat),
    (Admitted s h .hbmStatus p slot u → fld p 2 2 ≤ 553 →
      ∃ t b, exec (.hbmStatus h p) s = .next t ∧ Replied h .hbmStatus slot b t ∧ t.hbm = s.hbm ∧ t.cap = s.cap ∧
        b.take (snapshotHeader s.hbm).length = snapshotHeader s.hbm ∧
        b.drop ((snapshotHeader s.hbm).length + 40) =
          ((s.hbm.held.drop (fld p 0 2)).take (fld p 2 2)).flatMap heldBytes) ∧
    (Admitted s h .hbmThaw p slot u → s.hbm.state = 1 →
      ∃ t, exec (.hbmThaw h p) s = .next t ∧ Replied h .hbmThaw slot [] t ∧
        t.hbm = { s.hbm with state := 0, held := []
                             bad := if s.hbm.kind = 3 then s.hbm.bad else (s.hbm.address, s.hbm.port) :: s.hbm.bad } ∧
        ∀ e, s.pwr.stage < 3 → (s.eng e).halted = false → (s.eng e).debug = false → (t.eng e).stopped = false) ∧
    (Admitted s h .captureFreeze p slot u → p = [0, 0, 0, 0] → s.cap.state = 1 →
      ∃ t, exec (.captureFreeze h p) s = .next t ∧ Replied h .captureFreeze slot (be 1 t.cap.state ++ [0, 0, 0]) t ∧
        (t.cap.state = 2 ∨ t.cap.state = 3) ∧ t.cap.trigger = s.ch.begun.getD 0 ∧ t.cap.stamp = s.stamp ∧
        t.hbm.mem = s.hbm.mem ∧ t.hbm.undef = s.hbm.undef) ∧
    (Admitted s h .captureFreeze p slot u → p = [1, 0, 0, 0] → s.cap.state = 3 →
      (∀ c ∈ s.cmd.pending, ∀ o n k d, c.work ≠ .captureDump o n k d) →
      ∃ t, exec (.captureRelease h p) s = .next t ∧ Replied h .captureFreeze slot [1, 0, 0, 0] t ∧
        t.cap = { s.cap with state := 1 } ∧ t.hbm = s.hbm) ∧
    (Admitted s h .captureDump p slot u → fld p 12 1 < halfPortsOf s.fuses.variant → fld p 10 2 = 0 → fld p 13 1 = 0 →
      s.hbm.state ≠ 1 → s.cap.state = 3 →
      (∀ c ∈ s.cmd.pending, ∀ o n k d, c.work ≠ .captureDump o n k d) →
      ∃ t, exec (.captureDump h p) s = .next t ∧
        (if (t.cap.dump.bind fun j => j.packets.head?).isSome = true
         then Started h .captureDump slot (.captureDump (fld p 0 8) (fld p 8 2) (fld p 12 1) (p.drop 14)) t
         else ReplyIs h .captureDump slot .ok (be 4 0) t) ∧
        t.cap = { s.cap with dump := t.cap.dump } ∧ t.hbm = s.hbm ∧
        ∀ l, s.cap.layout = some l → ∃ j, t.cap.dump = some j ∧ j.layout = l ∧ j.hp = fld p 12 1 ∧ j.dest = p.drop 14 ∧
          j.next = 0 ∧ j.sent = 0 ∧ j.payload = s.eff 0x0308 ∧
          (∀ n ∈ j.orbits, fld p 0 8 ≤ n ∧ n < fld p 0 8 + fld p 8 2 ∧ ∃ o k, s.cap.oldest = some o ∧ s.cap.newest = some k ∧
            o ≤ n ∧ n ≤ k) ∧
          (j.packets ≠ [] → 1 ≤ l.z → l.z ≤ 4 → s.eff 0x0308 < 2 ^ 31 → (s.dch 61).state ≠ 1 → (s.dch 61).state ≠ 3 →
            (t.dch 61).state = 1 ∧ (t.dch 61).current = 0))

/-- The event commands: EVENTS_READ returns the sticky and the routed map; EVENTS_CLEAR clears the bits asked for and no other
(16 R366); FAULT_RECORD_READ returns slots and, with CLEAR, empties exactly those returned (16 R378); EVENT_ROUTE sets a route
(16 R368); JOURNAL_READ returns entries in ascending order and JOURNAL_MARK writes one with the host's tag (13 R319). -/
def Obligations.EventCommands : Prop :=
  ∀ (s : State) (h : CmdHdr) (p : Bytes) (slot u : Nat),
    (Admitted s h .eventsRead p slot u → ∃ t b, exec (.eventsRead h p) s = .next t ∧ Replied h .eventsRead slot b t ∧
      t.ev = s.ev ∧ b.take 128 = stickyMap s ∧ slice b 128 128 = eventMap fun e => s.route e != 0) ∧
    (Admitted s h .eventsClear p slot u → ∃ t, exec (.eventsClear h p) s = .next t ∧
      Replied h .eventsClear slot (stickyMap t) t ∧
      ∀ e, e < 1024 → eventPresent s.fuses.variant e = true →
        (mapBit p e = true → t.stickyBit e = false) ∧ (mapBit p e = false → s.stickyBit e = true → t.stickyBit e = true)) ∧
    (Admitted s h .faultRecordRead p slot u → fld p 0 1 ≤ 63 → fld p 1 1 ≤ 64 → fld p 2 1 ≤ 1 → fld p 3 1 = 0 →
      let n := min (fld p 1 1) (64 - fld p 0 1)
      ∃ t, exec (.faultRecordRead h p) s = .next t ∧
        Replied h .faultRecordRead slot (be 1 n ++ [0, 0, 0] ++
          (List.range n).flatMap fun i => faultBytes (tfind s.ev.faults (fld p 0 1 + i))) t ∧
        ∀ i, tfind t.ev.faults i =
          if fld p 2 1 = 1 ∧ fld p 0 1 ≤ i ∧ i < fld p 0 1 + n then none else tfind s.ev.faults i) ∧
    (Admitted s h .eventRoute p slot u → eventPresent s.fuses.variant (fld p 0 2) = true → fld p 2 1 ≤ 15 → fld p 3 1 = 0 →
      ∃ t, exec (.eventRoute h p) s = .next t ∧ Replied h .eventRoute slot [] t ∧
        t.route (fld p 0 2) = BitVec.ofNat 8 (fld p 2 1) ∧ ∀ e, e ≠ fld p 0 2 → t.route e = s.route e) ∧
    (Admitted s h .journalRead p slot u → fld p 8 2 ≤ 139 → fld p 10 2 = 0 →
      let es := (s.cmd.journal.reverse.dropWhile fun e => decide (e.jsn < fld p 0 8)).take (fld p 8 2)
      ∃ t, exec (.journalRead h p) s = .next t ∧ t.cmd.journal = s.cmd.journal ∧
        Replied h .journalRead slot (be 8 s.oldestJsn ++ be 8 s.newestJsn ++ be 2 es.length ++ List.replicate 6 0 ++
          es.flatMap s.entryBytes) t) ∧
    (Admitted s h .journalMark p slot u → ∃ t e, exec (.journalMark h p) s = .next t ∧ Replied h .journalMark slot [] t ∧
      t.cmd.journal.head? = some e ∧ e.jsn = s.cmd.nextJsn ∧ e.kind = 2 ∧ e.detail = p ∧ e.session = h.session.toNat ∧
      e.seq = h.seq.toNat ∧ t.cmd.nextJsn = s.cmd.nextJsn + 1)

/-- CU_STATUS and CU_HEALTH report the Ringmasters (14 R327, R343); CU_SWITCHOVER starts a planned transfer to a STANDBY unit
without mismatches (14 R344); CU_RESYNC resets and restarts the unit that does not hold the baton (14 R346).
CAL_CONFIGURE writes a channel's pending configuration, CAL_QUEUE appends samples that fit, and CAL_STROBE takes the
pending configurations of its groups' channels for a strobe (18 R402, R403, R406). -/
def Obligations.RingmasterAndCalliopeCommands : Prop :=
  (∀ (s : State) (h : CmdHdr) (p : Bytes) (slot u : Nat),
     let v := fld p 0 1
     (Admitted s h .cuStatus p slot u → ∃ t b, exec (.cuStatus h p) s = .next t ∧ Replied h .cuStatus slot b t ∧
       t.cu = s.cu ∧ b.take 4 = be 1 s.cu.holder ++ be 1 (reportedState s u 0) ++ be 1 (reportedState s u 1) ++
         be 1 (s.eff 0x0E00) ∧ slice b 8 4 = be 4 (s.unit (1 - s.cu.holder)).copyEpoch ∧
       slice b 20 4 = be 4 s.cu.switchovers) ∧
     (Admitted s h .cuHealth p slot u → v ≤ 1 → fld p 1 3 = 0 →
       ∃ t b, exec (.cuHealth h p) s = .next t ∧ Replied h .cuHealth slot b t ∧ t.cu = s.cu ∧
         b.take 16 = be 1 (cuScore s v) ++ [0, 0, 0] ++ be 8 (s.unit v).selftests ++ be 4 (s.unit v).coverage) ∧
     (Admitted s h .cuSwitchover p slot u → s.cu.switchover = none → (s.unit (1 - s.cu.holder)).state = .standby →
       (s.unit (1 - s.cu.holder)).mismatchSinceCommit = false →
       ∃ t w, exec (.cuSwitchover h p) s = .next t ∧ Started h .cuSwitchover slot .switchover t ∧
         t.cu.switchover = some w ∧ w.committed = false ∧ w.reclaim = false ∧ t.cu.holder = s.cu.holder ∧
         t.cu.held = s.cu.held) ∧
     (Admitted s h .cuResync p slot u → v ≤ 1 → fld p 1 3 = 0 → s.cu.holder ≠ v →
       s.working (fun w => w == .resync v) = false → firmwareOk s = true →
       ∃ t, exec (.cuResync h p) s = .next t ∧ Started h .cuResync slot (.resync v) t ∧ (t.unit v).state = .booting ∧
         (t.unit v).restartFails = 0 ∧ (t.unit v).repairing = true ∧ t.unit (1 - v) = s.unit (1 - v))) ∧
  (∀ (s : State) (h : CmdHdr) (p : Bytes) (slot u : Nat),
     let n := fld p 0 1
     (Admitted s h .calConfigure p slot u → n ≤ 3 → fld p 1 1 ≤ 2 → fld p 2 1 ≤ 7 → fld p 3 1 = 0 → fld p 4 8 < 2 ^ 48 →
       fld p 12 8 < 2 ^ 48 → (fld p 1 1 = 2 → fld p 22 2 ≠ 0) → fld p 24 4 = 0 →
       ∃ t, exec (.calConfigure h p) s = .next t ∧ Replied h .calConfigure slot [] t ∧
         t.calCh n = { s.calCh n with
           waitingAt := s.cycle
           waiting := some { mode := fld p 1 1, group := fld p 2 1, phaseInc := fld p 4 8, phase0 := fld p 12 8
                             amplitude := fld p 20 2, divider := fld p 22 2 } } ∧
         ∀ k, k ≠ n → t.calCh k = s.calCh k) ∧
     (Admitted s h .calQueue p slot u → n ≤ 3 → fld p 1 1 = 0 → fld p 2 2 ≤ 4478 →
       (∀ x ∈ calSamples p, -8191 ≤ x ∧ x ≤ 8191) → (s.calCh n).queue.length + fld p 2 2 ≤ 32768 →
       ∃ t, exec (.calQueue h p) s = .next t ∧
         Replied h .calQueue slot (be 2 (32768 - (s.calCh n).queue.length - fld p 2 2) ++ [0, 0]) t ∧
         t.calCh n = { s.calCh n with queue := (s.calCh n).queue ++ calSamples p } ∧
         ∀ k, k ≠ n → t.calCh k = s.calCh k) ∧
     (Admitted s h .calStrobe p slot u → fld p 1 3 = 0 → n ≠ 0 → s.cal.strobes = [] →
       ∃ t, exec (.calStrobe h p) s = .next t ∧ Replied h .calStrobe slot [] t ∧
         t.cal.strobes = [{ groups := n, cycle := s.cycle, configs := calTaken s n s.cycle false }] ∧
         ∀ k, k < 4 → (t.calCh k).active = (s.calCh k).active ∧ (t.calCh k).waiting =
           if bit n (s.calCh k).active.group then none else (s.calCh k).waiting))

/-- PEEK of the HBM returns its words and POKE writes them, no other byte changing (13 R316); SELFTEST, IMAGE_WRITE and
IMAGE_VERIFY start their work (14 R342; 19 R424); IMAGE_ACTIVATE of a verified copy that is not the active one raises
EV_IMG_ACTIVATED (19 R424). -/
def Obligations.SystemCommands : Prop :=
  ∀ (s : State) (h : CmdHdr) (p : Bytes) (slot u : Nat),
    let a := fld p 4 8
    let n := fld p 2 2
    let copy := fld p 0 1
    (Admitted s h .peek p slot u → copy = 0 → fld p 1 1 = 0 → n ≤ 2237 → a % 4 = 0 →
      a + 4 * n ≤ hbmCapacity s.fuses.variant → s.hbm.state = 0 → s.hbm.bad = [] → s.portShare 6 ≠ some 0 →
      ∃ t, exec (.peek h p) s = .next t ∧ Replied h .peek slot (s.hbmRead a (4 * n)) t ∧
        t.hbm = { s.hbm with buckets := t.hbm.buckets, accepted := t.hbm.accepted, queue := t.hbm.queue
                             ordered := t.hbm.ordered, inOrder := t.hbm.inOrder }) ∧
    (Admitted s h .poke p slot u → copy = 0 → fld p 1 1 = 0 → n ≤ 2237 → a % 4 = 0 →
      a + 4 * n ≤ hbmCapacity s.fuses.variant → s.hbm.state = 0 → s.heldProgrammes = [] → memWf 0 s.hbm.mem = true →
      s.portShare 6 ≠ some 0 → (∀ c ∈ s.cmd.pending, ∀ i, c.work ≠ .validate i) →
      ∃ t, exec (.poke h p) s = .next t ∧ Replied h .poke slot [] t ∧
        (∀ k, k < 4 * n → t.hbmGet (a + k) = p.getD (12 + k) 0) ∧
        ∀ k, k < a ∨ a + 4 * n ≤ k → t.hbmGet k = s.hbmGet k) ∧
    (Admitted s h .selftest p slot u → copy = 1 → fld p 1 1 = 0 → fld p 6 2 = 0 → 1 ≤ fld p 4 2 →
      n + fld p 4 2 ≤ enginesOf s.fuses.variant → (∀ e, n ≤ e → e < n + fld p 4 2 → (s.eng e).loaded = false) →
      (∀ c ∈ s.cmd.pending, ∀ k f m, c.work ≠ .selftest k f m) →
      ∃ t, exec (.selftest h p) s = .next t ∧ Started h .selftest slot (.selftest 1 n (fld p 4 2)) t ∧
        t.engines = s.engines) ∧
    (Admitted s h .imageWrite p slot u → copy ≤ 1 → fld p 1 3 = 0 → fld p 4 4 = 0 → (p.drop 8).length ≤ imageArea s →
      (s.boot.copy ≠ copy ∨ s.boot.complete = false) → s.flashHeld = false →
      ∃ t, exec (.imageWrite h p) s = .next t ∧ Started h .imageWrite slot (.imageWrite copy 0 (p.drop 8)) t ∧
        t.boot = s.boot) ∧
    (Admitted s h .imageVerify p slot u → copy ≤ 1 → fld p 1 3 = 0 → s.flashHeld = false →
      ∃ t, exec (.imageVerify h p) s = .next t ∧ Started h .imageVerify slot (.imageVerify copy) t ∧ t.boot = s.boot) ∧
    (Admitted s h .imageActivate p slot u → copy ≤ 1 → fld p 1 3 = 0 → s.flashHeld = false →
      tget s.boot.verified copy false = true → activeCopy s ≠ some copy →
      ∃ t, exec (.imageActivate h p) s = .next t ∧ Replied h .imageActivate slot [] t ∧ t.stickyBit 1022 = true ∧
        t.boot.verified = s.boot.verified ∧ t.hbm = s.hbm)

/-- A command whose SEQ the session still holds is answered again with its cached reply, back where this packet came from (13 R301), and
executed no second time (13 R307); a SEQ neither cached nor ahead of H gets STALE_SEQUENCE, and the session, its H and the device stay as they are
(13 R306); a command of no open session of its source gets NO_SESSION (13 R308); one on a transport that carries no commands does
not reach the device (01 R16). For every opcode.
An observer's session may use only the class R commands: any other is answered with REFUSED, which consumes its SEQ, writes
no journal entry and changes nothing of the device (13 R309). -/
def Obligations.RepeatedStaleAndRefusedCommands : Prop :=
  (∀ (s : State) (op : Op) (h : CmdHdr) (p : Bytes) (u : Nat), s.server = some u → s.cmd.queue = [] → h.session.toNat ≠ 0 →
     (∀ slot, s.carries h.origin = true → s.findSession h.session.toNat h.origin = some slot →
       (∀ e, (s.session slot).cached h.seq.toNat = some e → ∃ t, exec (op.command h p) s = .next t ∧
         t = sendReply { e.reply with origin := h.origin } (bumpCmd h.origin.transport .cachedResent (s.heard h)) ∧ OnlyAnswered s t) ∧
       ((s.session slot).cached h.seq.toNat = none →
         (let d := (h.seq.toNat + 2 ^ 32 - (s.session slot).high) % 2 ^ 32
          d = 0 ∨ 2 ^ 31 ≤ d) →
         ∃ t, exec (op.command h p) s = .next t ∧ OnlyAnswered s t ∧ t.stickyBit 960 = true ∧
           t = sendReply (bareReply h op.code .staleSequence s.newestJsn
             (be 4 (s.session slot).high ++ be 4 (s.session slot).oldestCached))
             (violation h.origin.transport .stale (s.heard h)))) ∧
     (s.carries h.origin = false → exec (op.command h p) s = .next s) ∧
     (s.carries h.origin = true → s.findSession h.session.toNat h.origin = none →
       ∃ t, exec (op.command h p) s = .next t ∧ OnlyAnswered s t ∧ t.stickyBit 960 = true ∧ t = sendReply (bareReply h op.code .noSession s.newestJsn [])
         (violation h.origin.transport .noSession (s.heard h)))) ∧
  (∀ (s : State) (op : Op) (h : CmdHdr) (p : Bytes) (slot u : Nat), s.carries h.origin = true → s.server = some u →
     s.cmd.queue = [] → h.toStandby = false → h.session.toNat ≠ 0 → s.findSession h.session.toNat h.origin = some slot →
     (s.session slot).cached h.seq.toNat = none →
     1 ≤ (h.seq.toNat + 2 ^ 32 - (s.session slot).high) % 2 ^ 32 →
     (h.seq.toNat + 2 ^ 32 - (s.session slot).high) % 2 ^ 32 ≤ 2 ^ 31 - 1 → (s.session slot).cacheStuck = false →
     (s.session slot).controller = false → op.classR = false → op.lengthOk p = true →
     ∃ t, exec (op.command h p) s = .next t ∧ ReplyIs h op slot .refused (refusalParams op .refused) t ∧
       t.cmd.journal = s.cmd.journal ∧ t.cmd.nextJsn = s.cmd.nextJsn ∧ (∀ j, j ≠ slot → t.session j = s.session j) ∧
       t = { s with mp := t.mp, sent := t.sent, cmd := t.cmd })

/-- COMMAND_PACKET_ARRIVAL, on a transport that carries commands (01 R16): a packet whose length, magic or header CRC is wrong is dropped in silence, counted and reported as
a violation; a good one joins the command queue, marked when the baton is passing, unless 64 wait already, and counts as waiting where no
interpreter serves (13 R305, R323, R324, R445).
PENDING_COMMAND_COMPLETE: the cached reply of the pending command is replaced by its final reply, and a COMPLETION entry is
written (13 R311, R319), here for SELFTEST of engines and half-ports, IMAGE_VERIFY and a COMMIT_PRESET that the flash fails, each in the one step of
log entry 115; SESSION_TIMEOUT closes its session and no other (13 R310). -/
def Obligations.PacketsAndCompletions : Prop :=
  (∀ (s : State) (o : Origin) (b : Bytes), s.boot.porstLow = false →
     (s.carries o = false → exec (.commandPacketArrival o b) s = .next s) ∧ (s.carries o = true →
     let good : Prop := 20 ≤ b.length ∧ b.length ≤ 8980 ∧ fld b 0 2 = 0x6E4D ∧ fld b 14 2 = crc16 (b.take 14)
     (¬good → ∃ t, exec (.commandPacketArrival o b) s = .next t ∧ t.stickyBit 960 = true ∧
       t = { s with ev := t.ev, cmd := { s.cmd with counters := t.cmd.counters } }) ∧
     (good → s.cmd.queue.length < 64 → ∃ t, exec (.commandPacketArrival o b) s = .next t ∧
       t.cmd.queue = (s.cmd.queue ++ [({ origin := o, bytes := b, passing := s.cu.passing, waited := false } : QueuedPacket)]).map
         (fun q => { q with waited := q.waited || s.server.isNone }) ∧
       t = { s with cmd := { s.cmd with queue := t.cmd.queue, counters := t.cmd.counters } }) ∧
     (good → 64 ≤ s.cmd.queue.length → ∃ t, exec (.commandPacketArrival o b) s = .next t ∧
       t = { s with cmd := { s.cmd with counters := t.cmd.counters } }))) ∧
  ((∀ (s : State) (c : PendingCommand) (r : WorkOutcome) (slot u : Nat), s.server = some u →
     (s.cmd.pending.find? fun c' => c'.session == c.session && c'.seq == c.seq) = some c →
     s.findSession c.session c.origin = some slot →
     let done := fun (t : State) (st : Status) (params : Bytes) =>
       (∃ e, (t.session slot).cached c.seq = some e ∧ e.pending = false ∧ e.reply.final = true ∧ e.reply.status = st ∧
         e.reply.params = params) ∧
       (∃ j, t.cmd.journal.head? = some j ∧ j.kind = 1 ∧ j.jsn = s.cmd.nextJsn ∧ j.session = c.session ∧ j.seq = c.seq ∧
         j.status = st.code ∧ j.opcode = c.opcode) ∧
       t.cmd.pending = dropFirst (fun x => x == c) s.cmd.pending ∧ (t.session slot).high = (s.session slot).high
     (∀ k f n, c.work = .selftest k f n → k ≠ 0 → r.failed = false →
       ∃ t, exec (.pendingCommandComplete c.session c.seq r) s = .next t ∧ t.boot = s.boot ∧ t.set = s.set ∧
         done t .ok (be 4 r.passedCount ++ be 4 r.failedCount ++ padTo 28 (match r.location with | some l => locCode l | none => []))) ∧
     (∀ k crc, c.work = .imageVerify k → r.failed = false → ryunosCrc s k = some crc →
       ∃ t, exec (.pendingCommandComplete c.session c.seq r) s = .next t ∧ t.boot.flash = s.boot.flash ∧
         tget t.boot.verified k false = ((ryunosResult s k).1 == 0) ∧
         done t .ok (be 1 (ryunosResult s k).1 ++ be 1 (ryunosResult s k).2 ++ [0, 0] ++ be 4 crc)) ∧
     (∀ keys, c.work = .commitPreset keys → r.failed = true →
       ∃ t, exec (.pendingCommandComplete c.session c.seq r) s = .next t ∧ t.boot = s.boot ∧ t.set = s.set ∧
         t.stickyBit 1021 = true ∧ done t .hwFault [])) ∧
   (∀ (s : State) (slot : Nat), slot < 8 → (s.session slot).isOpen = true →
     ∃ t, exec (.sessionTimeout slot) s = .next t ∧ (t.session slot).isOpen = false ∧ (t.session slot).controller = false ∧
       (t.session slot).incarnation = (s.session slot).incarnation ∧ t.stickyBit 961 = true ∧
       (∀ k, k ≠ slot → t.session k = s.session k) ∧
       t = { s with ev := t.ev, cmd := { s.cmd with sessions := t.cmd.sessions, counters := t.cmd.counters } }))

/-- The Sideband: code 0xA0 appends, 0xA1 submits the buffer as one packet and is BUSY until its reply, 0xA2 reads the status,
0xA3 the next bytes of the reply and 0xA4 discards the buffer and the reply, while a BUSY buffer NACKs (13 R322); when BUSY
and OVERRUN clear is the model's reading (log entry 12). -/
def Obligations.SidebandTransfers : Prop :=
  ∀ (s : State) (data : Bytes) (sent : Option Byte) (n : Nat), s.boot.porstLow = false →
    let b := s.cmd.sideband
    let only := fun (x : Sideband) => { s with cmd := { s.cmd with sideband := x } }
    let fits := 1 ≤ data.length ∧ data.length ≤ 255 ∧ b.command.length + data.length ≤ 8980
    let packet := b.command ++ data
    (b.busy = false → fits → sbPecOk s sent (0xA0 :: BitVec.ofNat 8 data.length :: data) = true →
      exec (.sbBlockWriteAppend data sent) s = .next (only { b with command := packet, ack := true })) ∧
    (b.busy = false → fits → sbPecOk s sent (0xA1 :: BitVec.ofNat 8 data.length :: data) = true → 20 ≤ packet.length →
      fld packet 0 2 = 0x6E4D → fld packet 14 2 = crc16 (packet.take 14) → s.cmd.queue.length < 64 →
      ∃ t, exec (.writeEnd data sent) s = .next t ∧
        t.cmd.queue = (s.cmd.queue ++ [({ origin := sbOrigin, bytes := packet, passing := s.cu.passing, waited := false } : QueuedPacket)]).map
          (fun q => { q with waited := q.waited || s.server.isNone }) ∧
        t.cmd.sideband = { b with command := [], reply := [], replyPos := 0, ready := false, busy := true, ack := true } ∧
        t = { s with cmd := { s.cmd with queue := t.cmd.queue, sideband := t.cmd.sideband, counters := t.cmd.counters } }) ∧
    (b.busy = true → exec (.writeEnd data sent) s = .next (only { b with ack := false }) ∧
      exec (.sbDiscard sent) s = .next (only { b with ack := false })) ∧
    exec .sbReadStatus s = .next (only { b with
      lastRead := [BitVec.ofNat 8 (b2n b.ready + 2 * b2n b.busy + 4 * b2n b.overrun)], ack := true }) ∧
    (n ≤ 255 → b.replyPos + n ≤ b.reply.length → exec (.sbBlockRead n) s = .next (only { b with
      lastRead := slice b.reply b.replyPos n, replyPos := b.replyPos + n, ack := true })) ∧
    (b.busy = false → sbPecOk s sent [0xA4] = true → ∃ t, exec (.sbDiscard sent) s = .next t ∧
      t.cmd.sideband.command = [] ∧ t.cmd.sideband.reply = [] ∧ t.cmd.sideband.ready = false ∧
      t = only t.cmd.sideband)

/-! ### Boot, power and clocks (17, 19, 20) -/

/-- PORST_N resets everything but the fuses, the flash and the TAP (20 R431); the model's own counter, the frames already sent
and the waiting commands are no state of the device. Loading EXTEST, EXTEST_PULSE, EXTEST_TRAIN, CLAMP or HIGHZ resets the
device too and holds it, another instruction only takes the instruction register (20 R444).
The rising edge of PORST_N, or leaving the TAP instructions that hold the device, starts the boot: BOOT_SEL is sampled, a
BOOT_ID drawn, the BOOT entry written, and step 2 begins; while the other of the two holds the device, it stays in reset
(19 R415; 20 R444). A TAP reset resets the debug access port master, whose transaction is abandoned (20 R444; 15 R362). -/
def Obligations.ResetAndBootBegin : Prop :=
  (∀ (s : State),
     let cleared := fun (t : State) => t.fuses = s.fuses ∧ t.boot.flash = s.boot.flash ∧ t.boot.flashSize = s.boot.flashSize ∧
       t.boot.porstLow = true ∧ t.server = none ∧
       { t with fuses := {}, free := 0, sent := [], pending := []
                boot := { t.boot with flash := [], flashSize := 2 ^ 26, tapIr := 0x02, tapHeld := false, porstPin := true
                                      pins := 0 } } = State.reset
     (∃ t, exec .porstNAssert s = .next t ∧ cleared t ∧ t.boot.porstPin = true ∧ t.boot.tapIr = s.boot.tapIr ∧
       t.boot.tapHeld = s.boot.tapHeld) ∧
     (∀ code, code ∈ [0x00, 0x03, 0x04, 0x05, 0x06] →
       (s.boot.tapHeld = false → ∃ t, exec (.tapResetInstructionLoad code) s = .next t ∧ cleared t ∧ t.boot.tapIr = code ∧
         t.boot.tapHeld = true ∧ t.boot.porstPin = s.boot.porstPin) ∧
       (s.boot.tapHeld = true → exec (.tapResetInstructionLoad code) s =
         .next { s with boot := { s.boot with tapIr := code } })) ∧
     (∀ code, code < 256 → code ∉ [0x00, 0x03, 0x04, 0x05, 0x06] → s.boot.tapHeld = false →
       exec (.tapResetInstructionLoad code) s = .next { s with boot := { s.boot with tapIr := code } })) ∧
  (∀ (s : State) (pins code : Nat),
     let begins := fun (t : State) => t.boot.porstLow = false ∧ t.boot.sel = pins % 4 ∧ t.boot.step = 2 ∧ t.pwr.wakeStep = 1 ∧
       t.cmd.bootId = (Config.freeWord s.free).toNat ∧ t.free = s.free + 1 ∧ t.cmd.nextJsn = s.cmd.nextJsn + 1 ∧
       (∃ j, t.cmd.journal.head? = some j ∧ j.kind = 4 ∧ j.jsn = s.cmd.nextJsn ∧
         j.detail = be 4 0 ++ be 4 (Config.freeWord s.free).toNat) ∧
       t.mp.state = .training ∧ (s.cu.held = false → s.cu.passing = false → s.cmd.awaited = none → t.server = some 2) ∧
       t = { s with free := t.free, boot := t.boot, cmd := t.cmd, pwr := t.pwr, mp := t.mp, ev := t.ev } ∧
       t.boot.flash = s.boot.flash
     (s.boot.porstPin = true → s.boot.tapHeld = false →
       ∃ t, exec (.boot pins) s = .next t ∧ begins t ∧ t.boot.porstPin = false) ∧
     (s.boot.porstPin = true → s.boot.tapHeld = true →
       exec (.boot pins) s = .next { s with boot := { s.boot with porstPin := false } }) ∧
     (s.boot.tapHeld = true → code < 256 → tapHolds code = false →
       (s.boot.porstPin = false → ∃ t, exec (.tapResetInstructionLeave code pins) s = .next t ∧ begins t ∧
         t.boot.tapHeld = false ∧ t.boot.tapIr = code) ∧
       (s.boot.porstPin = true → exec (.tapResetInstructionLeave code pins) s =
         .next { s with boot := { s.boot with tapIr := code, tapHeld := false } })) ∧
     (s.boot.tapHeld = false → ∃ t, exec (.tapReset pins) s = .next t ∧ t.boot = { s.boot with tapIr := 0x02 } ∧
       thas t.bus.outstanding 4 = false ∧ 4 ∉ t.bus.portIdle ∧ (thas s.bus.outstanding 4 = true → t.stickyBit 912 = true) ∧
       (∀ m, m ≠ 4 → tfind t.bus.outstanding m = tfind s.bus.outstanding m) ∧
       t = { s with bus := t.bus, ev := t.ev, boot := t.boot }))

/-- The steps of the boot (19 R415, Table 19.2): step 3 reads the flash unless BOOT_SEL passes it over, step 6 trains the HBM,
whose stacks that fail turn its domain off, and step 7 ends with unit A holding the baton, unit B waiting for an epoch, and
the device ACTIVE. In DEBUG_HOLD masters 4 and 5 release the units by a bus write, another master's is denied, or, from a DMA
engine that may not write there, a decode error (19 R414; 15 R357, Table 15.2). -/
def Obligations.BootSteps : Prop :=
  ∀ (s : State) (bad repaired : List Nat), s.boot.porstLow = false →
    (s.boot.step = 3 → s.boot.sel = 3 → exec (.bootStepComplete bad repaired) s =
      .next { s with boot := { s.boot with step := 4 } }) ∧
    (s.boot.step = 3 → s.boot.sel = 2 → exec (.bootStepComplete bad repaired) s =
      .next { s with boot := { s.boot with step := 4, copy := 2 } }) ∧
    (s.boot.step = 3 → s.boot.sel < 2 → bad ≠ [] → ∃ t, exec (.bootStepComplete bad repaired) s = .next t ∧
      t.boot.step = 4 ∧ t.boot.copy = 2 ∧ t.boot.noImage = true ∧ t.stickyBit 1017 = true) ∧
    (s.boot.step = 4 → s.boot.sel ≠ 3 → s.boot.copy = 2 → ∃ t, exec (.bootStepComplete bad repaired) s = .next t ∧
      t.boot.step = 7 ∧ (t.unit 0).state = .booting ∧ (t.unit 1).state = .booting ∧ (t.unit 0).inReset = false ∧
      (t.unit 1).inReset = false ∧ t.bus.remapA = true ∧ t.bus.remapB = true ∧ t.hbm = s.hbm) ∧
    (s.boot.step = 6 → s.hbm.state = 2 → bad = [] → ∃ t, exec (.bootStepComplete bad repaired) s = .next t ∧
      t.boot.step = 7 ∧ t.hbm.state = 0 ∧ t.hbm.mem = s.hbm.mem ∧ t.hbm.undef = s.hbm.undef ∧ t.pwr.hbmTrained = true ∧
      ∀ h, h < stacksOf s.fuses.variant → h ∈ repaired → t.stickyBit (656 + 8 * h + 5) = true) ∧
    (s.boot.step = 6 → (∃ h ∈ bad, h < stacksOf s.fuses.variant) → ∃ t, exec (.bootStepComplete bad repaired) s = .next t ∧
      t.boot.step = 7 ∧ t.hbm.state = 5 ∧ t.boot.hbmFailed = true ∧
      ∀ h ∈ bad, h < stacksOf s.fuses.variant → t.stickyBit (656 + 8 * h + 4) = true) ∧
    (s.boot.step = 7 → (s.unit 0).state ∈ [CuState.booting, CuState.syncing] →
      ∃ t, exec (.bootStepComplete bad repaired) s = .next t ∧ t.boot.step = 0 ∧ t.boot.complete = true ∧
        t.pwr.state = .active ∧ t.cu.held = true ∧ t.cu.holder = 0 ∧ (t.unit 0).state = .active ∧
        ((s.unit 1).state = .booting → (t.unit 1).state = .syncing) ∧ t.boot.flash = s.boot.flash) ∧
    (s.boot.step ∈ [0, 1, 2, 5] → exec (.bootStepComplete bad repaired) s = .next s) ∧
    (∀ m, masterLive s m = true → portTaken s m = false → busHolder .device s = false → BusTarget.device ∉ s.bus.closed →
      s.boot.sel = 3 → s.boot.step ≠ 3 →
      (m = 4 ∨ m = 5 → (s.unit 0).inReset = true → ∃ t, exec (.bootStatusReleaseA m) s = .next t ∧
        (t.unit 0).state = .booting ∧ (t.unit 0).inReset = false ∧ t.unit 1 = s.unit 1 ∧
        (s.boot.step = 4 → t.boot.step = 6 ∧ t.hbm = { s.hbm with state := 2 }) ∧
        (s.boot.step ≠ 4 → t.boot = s.boot ∧ t.hbm = s.hbm)) ∧
      (m = 4 ∨ m = 5 → (s.unit 1).inReset = true → ∃ t, exec (.bootStatusReleaseB m) s = .next t ∧
        (t.unit 1).state = .booting ∧ (t.unit 1).inReset = false ∧ t.unit 0 = s.unit 0 ∧ t.boot = s.boot) ∧
      (m < 4 → ∃ t, exec (.bootStatusReleaseA m) s = .next t ∧ exec (.bootStatusReleaseB m) s = .next t ∧
        t.stickyBit (if m = 3 ∨ m = 2 ∧ s.fuses.variant = .gl1024 then 913 else 914) = true ∧
        t = { s with bus := t.bus, ev := t.ev }))

/-- WAKE_N_LOW and SB_WAKE_ADDRESS_MATCH: an enabled source wakes a device in DOZE or SLEEP toward PWR_WAKE_STATE, and the
address byte is ACKed, the data bytes after it NACKed; one in a wake in progress is counted and ignored; one whose PWR_WAKE_MASK bit is clear does not fire
(17 R389, R390).
Waking (17 R389 to R392): each step that completes is followed by the next, step 1 once the rails are good, step 3 with the control
domain and step 4 with the HBM; an attempt that times out is repeated after its domains were switched off and on again (log entry 152),
and the third fails the wake with its step, the state as before. The short
training of the HBM after shedding stage 4 ends the same way, with no step (07 R173). -/
def Obligations.Waking : Prop :=
  (∀ (s : State), s.boot.porstLow = false → s.pwr.state ∈ [PowerState.doze, PowerState.sleep] → s.boot.step = 0 →
     s.asking = false →
     let woken := fun (s : State) => { s with pwr := { s.pwr with
       busy := true, target := powerOf (s.eff 0x0B00), commanded := false, wakeStep := 1, attempt := 1 } }
     let acked := fun (data : Nat) => { s with cmd := { s.cmd with sideband := { s.cmd.sideband with ack := true, nacked := data } } }
     (bit s.pwr.wakeMask 0 = true → s.pwr.busy = false → s.pwr.wakeStep = 0 → exec .wakeNLow s = .next (woken s)) ∧
     (bit s.pwr.wakeMask 0 = true → s.pwr.wakeStep ≠ 0 → exec .wakeNLow s =
       .next { s with pwr := { s.pwr with wakesIgnored := satInc 32 s.pwr.wakesIgnored } }) ∧
     (bit s.pwr.wakeMask 0 = false → exec .wakeNLow s = .next s) ∧
     (s.pwr.sbWakeAddr ≠ 0 → bit s.pwr.wakeMask 1 = true → s.pwr.busy = false → s.pwr.wakeStep = 0 → ∀ data,
       exec (.sbWakeAddressMatch s.pwr.sbWakeAddr data) s = .next (woken (acked data))) ∧
     (s.pwr.sbWakeAddr = 0 → ∀ a data, exec (.sbWakeAddressMatch a data) s = .next s) ∧
     (∀ a data, a ≠ s.pwr.sbWakeAddr → exec (.sbWakeAddressMatch a data) s = .next s)) ∧
  (∀ (s : State) (repaired failing : List Nat), s.boot.porstLow = false →
     let n := s.pwr.wakeStep
     let next := fun (t : State) => t.pwr.wakeStep = n + 1 ∧ t.pwr.attempt = 1 ∧ t.pwr.state = s.pwr.state ∧
       t.pwr.target = s.pwr.target ∧ t.pwr.busy = s.pwr.busy
     (n = 1 → railsGood s = false → exec (.wakeStepComplete repaired) s = .next s) ∧
     (n = 1 ∧ railsGood s = true ∨ n = 2 → exec (.wakeStepComplete repaired) s =
       .next { s with pwr := { s.pwr with wakeStep := n + 1, attempt := 1 } }) ∧
     (n = 3 → s.boot.step = 0 → s.recovery = false → s.hbm.state ≠ 1 → s.boot.hbmFailed = false →
       ∃ t, exec (.wakeStepComplete repaired) s = .next t ∧ next t ∧ t.pwr.ctlOn = true ∧ t.hbm = { s.hbm with state := 2 } ∧
         (s.pwr.ctlOn = false → t.bus.retained = s.bus.retained.filter fun e => bit s.pwr.retainMask (e.1 / 2 ^ 22))) ∧
     (n = 4 → s.pwr.rollback = none → s.pwr.state = .sleep → s.hbm.state = 2 →
       ∃ t, exec (.wakeStepComplete repaired) s = .next t ∧ next t ∧ t.hbm = { s.hbm with state := 0, failedStacks := [] } ∧
         t.pwr.hbmTrained = true ∧ ∀ h, h < stacksOf s.fuses.variant → h ∈ repaired → t.stickyBit (661 + 8 * h) = true) ∧
     (n = 5 → firmwareOk s = true → s.cmd.pending = [] →
       ∃ t, exec (.wakeStepComplete repaired) s = .next t ∧ t.pwr.state = s.pwr.target ∧ t.pwr.wakeStep = 0 ∧
         t.pwr.busy = false ∧ t.pwr.wakeFailed = false ∧ t.cu.held = true ∧ t.cu.holder = 0 ∧ (t.unit 0).state = .active ∧
         (t.unit 1).state = .syncing ∧ t.stickyBit 842 = true) ∧
     (n = 0 → s.pwr.hbmResume = false →
       exec (.wakeStepComplete repaired) s = .next s ∧ exec (.wakeStepTimeout failing) s = .next s) ∧
     (n = 0 → s.pwr.hbmResume = true → s.hbm.state = 2 → ∃ t, exec (.wakeStepComplete repaired) s = .next t ∧
       t.pwr.hbmResume = false ∧ t.hbm.state = 0 ∧ t.hbm.mem = s.hbm.mem ∧ t.pwr.state = s.pwr.state) ∧
     (n = 0 → s.pwr.hbmResume = true → 3 ≤ s.pwr.attempt → ∃ t, exec (.wakeStepTimeout failing) s = .next t ∧
       t.hbm.state = 5 ∧ t.pwr.hbmResume = false ∧ t.pwr.wakeFailed = true ∧ t.pwr.state = s.pwr.state ∧ t.stickyBit 841 = true) ∧
     (let u := switchAgain s
      (n ≠ 0 ∨ s.pwr.hbmResume = true → s.pwr.attempt < 3 → exec (.wakeStepTimeout failing) s =
        .next { u with pwr := { u.pwr with attempt := s.pwr.attempt + 1, wakeRepeats := satInc 32 s.pwr.wakeRepeats } }) ∧
      (s.pwr.state ≠ .sleep ∨ s.boot.step ≠ 0 ∨ n ≠ 4 ∧ n ≠ 5 → u = s) ∧
      (s.pwr.state = .sleep → s.boot.step = 0 → n = 4 → u = { s with hbm := { ({} : Hbm) with state := s.hbm.state } }) ∧
      (s.pwr.state = .sleep → s.boot.step = 0 → n = 5 → u.pwr.ctlOn = true ∧ u.hbm = s.hbm ∧ u.cu.held = false ∧
        u.bus.sram = [] ∧ u.pwr.state = .sleep ∧ u.pwr.wakeStep = n)) ∧
     (n ≠ 0 → s.pwr.hbmResume = false → 3 ≤ s.pwr.attempt → s.pwr.rollback = none →
       ∃ t, exec (.wakeStepTimeout failing) s = .next t ∧ t.pwr.state = s.pwr.state ∧ t.pwr.busy = false ∧
         t.pwr.wakeStep = 0 ∧ t.pwr.wakeFailed = true ∧ t.pwr.wakeFailures = satInc 32 s.pwr.wakeFailures ∧
         t.stickyBit 841 = true))

/-- The sleep handshake (17 R385 to R387): a block that agrees stops and the next one is asked; the last one's agreement enters
the target state; a refusal, or silence beyond the budget, ends the transition with its reason, the state as before. COMMANDS is
silent for SLEEP while no unit can write the epoch that SLEEP needs (00 R10). -/
def Obligations.SleepHandshake : Prop :=
  ∀ (s : State), s.asking = true →
    let b := s.pwr.block
    let refused := fun (t : State) => t.pwr.state = s.pwr.state ∧ t.pwr.busy = false ∧ t.pwr.block = 0 ∧
      t.pwr.refusals = satInc 32 s.pwr.refusals ∧ t.pwr.transitions = s.pwr.transitions ∧ t.stickyBit 840 = true ∧
      t.hbm = s.hbm
    (∀ k, blockReason s b = none → b ∈ [1, 3, 8] → (handshakeBlocks s.pwr.state s.pwr.target).find? (b < ·) = some k →
      exec (.handshakeBlockAnswer false) s =
        .next { s with pwr := { s.pwr with agreed := b :: s.pwr.agreed, block := k } }) ∧
    (blockReason s b = none → b = 1 → s.pwr.state = .active → s.pwr.target = .idle →
      ∃ t, exec (.handshakeBlockAnswer false) s = .next t ∧ t.pwr.state = .idle ∧ t.pwr.busy = false ∧ t.pwr.block = 0 ∧
        t.pwr.transitions = satInc 32 s.pwr.transitions ∧ t.engines = s.engines ∧ t.hbm = s.hbm ∧
        ∀ k, t.hp k = { s.hp k with looped := (t.hp k).looped }) ∧
    (∀ r, blockReason s b = some r → s.pwr.agreed = [] → ∃ t, exec (.handshakeBlockAnswer false) s = .next t ∧ refused t) ∧
    (s.pwr.agreed = [] → ∃ t, exec .handshakeBudgetExpiry s = .next t ∧ refused t) ∧
    (b ≠ 1 → exec (.handshakeBlockAnswer true) s = .next s) ∧
    (b = 2 → s.pwr.target = .sleep → s.canCopy = false → blockReason s b = none →
      exec (.handshakeBlockAnswer false) s = .next s)

/-- The monitors and the stages (17 R393 to R397, R400): a sample takes the thresholds, and the sag is that of the worst counted rail; a
stage is entered at its threshold with its event and its count, stages 1 and 2 are left one by one below theirs whatever deeper stage is
latched; 115 degrees trips stage 5 in every state.
The slow clock and the core clock (17 R383, R384): a stopped crystal hands over to the oscillator with its event and is
tried again; 32,768 clean cycles bring it back; a core or HBM clock lost while it runs enters its fault and, in a device below stage 5,
stage 5. -/
def Obligations.SheddingAndClocks : Prop :=
  (∀ (s : State) (rails : List Nat) (k : Nat) (c : Int), s.boot.porstLow = false →
     let enters := s.pwr.state ≠ .sleep ∧ s.eff 0x0B06 = 1 ∧ s.inStage k = false ∧ shedEnter s k ≤ s.pwr.sag ∧ s.asking = false
     (∃ t, exec (.supplyMonitorSample rails) s = .next t ∧ t = { s with pwr := t.pwr, ev := t.ev } ∧
       t.pwr = { s.pwr with sag := t.pwr.sag, worstRail := t.pwr.worstRail, rails := t.pwr.rails, thresholds := t.pwr.thresholds } ∧
       (∀ r, r < 10 → railCounted s r = true → railSag r (rails.getD r 0) ≤ t.pwr.sag) ∧
       (s.pwr.state ≠ .sleep → railCounted s t.pwr.worstRail = true ∧ t.pwr.worstRail < 9 ∧
         t.pwr.sag = railSag t.pwr.worstRail (rails.getD t.pwr.worstRail 0)) ∧
       (∀ r, r < 10 → tget t.pwr.rails r 0 = rails.getD r 0) ∧
       (∀ j, 1 ≤ j → j ≤ 5 → shedEnter t j = s.eff (0x0B0F + j) ∧ shedHyst t j = s.eff (0x0B17 + j)) ∧
       (rails.getD 9 0 * 1000 < 950 * railNominal 9 → t.stickyBit 846 = true)) ∧
     (enters → 2 ≤ k → k ≤ 3 → (∀ j, 1 ≤ j → j < k → s.inStage j = true) →
       ∃ t, exec (.shedStageEnter k) s = .next t ∧ t.inStage k = true ∧
         tget t.pwr.stageEntries k 0 = satInc 32 (tget s.pwr.stageEntries k 0) ∧ t.stickyBit (831 + k) = true ∧
         t.pwr.latched = (if k = 3 then k :: s.pwr.latched else s.pwr.latched) ∧
         t.pwr.low = (if k = 2 then k else s.pwr.low) ∧ t = { s with pwr := t.pwr, ev := t.ev }) ∧
     (enters → k = 1 → ∃ t, exec (.shedStageEnter 1) s = .next t ∧ t.pwr.low = 1 ∧ t.stickyBit 832 = true ∧
       (∀ n, n < 4 → (t.calCh n).forced = true ∧ (t.calCh n).cause = 1) ∧
       t = { s with pwr := t.pwr, ev := t.ev, cal := t.cal }) ∧
     (s.eff 0x0B06 = 0 ∨ s.inStage k = true ∨ k = 0 ∨ 5 < k ∨ s.pwr.sag < shedEnter s k → exec (.shedStageEnter k) s = .next s) ∧
     (1 ≤ k → k ≤ 2 → s.pwr.low = k → s.pwr.sag < shedEnter s k - shedHyst s k →
       exec (.shedStageExit k) s = .next (captureResumes { s with pwr := { s.pwr with low := k - 1 } })) ∧
     (2 < k ∨ s.pwr.low ≠ k ∨ shedEnter s k - shedHyst s k ≤ s.pwr.sag → exec (.shedStageExit k) s = .next s) ∧
     (c < 115 → ∃ t, exec (.tjSensorRead c) s = .next t ∧ t = { s with
         pwr := { s.pwr with junction := c, thresholds := tput s.pwr.thresholds 0x0B09 (s.eff 0x0B09) }, ev := t.ev } ∧
       ((s.eff 0x0B09 : Int) ≤ c → t.stickyBit 844 = true) ∧ (c < (s.eff 0x0B09 : Int) → t.ev = s.ev)) ∧
     (115 ≤ c → s.inStage 5 = false → s.pwr.busy = false → s.pwr.rollback = none →
       ∃ t, exec (.tjSensorRead c) s = .next t ∧ t.pwr.junction = c ∧ t.pwr.tripped = true ∧ 5 ∈ t.pwr.latched ∧
         t.pwr.state = .sleep ∧ t.stickyBit 845 = true ∧ t.stickyBit 836 = true)) ∧
  (∀ (s : State), s.boot.porstLow = false →
     (s.pwr.slowXtal = true → ∃ t, exec .xtalLost s = .next t ∧ t.stickyBit 736 = true ∧
       t = { s with pwr := { s.pwr with slowXtal := false, xtalTrying := false }, ev := t.ev }) ∧
     (s.pwr.slowXtal = false → exec .xtalLost s = .next s ∧
       exec .xtalRetry s = .next { s with pwr := { s.pwr with xtalTrying := true } }) ∧
     (s.pwr.slowXtal = true → exec .xtalRetry s = .next s) ∧
     (s.pwr.xtalTrying = true → s.pwr.slowSrc = 0 →
       exec .slowClockToXtal s = .next { s with pwr := { s.pwr with slowXtal := true } }) ∧
     (s.pwr.xtalTrying = false ∨ s.pwr.slowSrc ≠ 0 → exec .slowClockToXtal s = .next s) ∧
     (∀ hbm, s.pwr.ctlOn = true → (hbm = true → s.hbmClocked = true) → s.inStage 5 = false → s.pwr.busy = false →
       s.pwr.rollback = none → ∃ t, exec (.coreClockLost hbm) s = .next t ∧ 5 ∈ t.pwr.latched ∧
         t.pwr.state = .sleep ∧ t.stickyBit (if hbm then 738 else 737) = true ∧ t.stickyBit 836 = true) ∧
     (∀ hbm, s.pwr.ctlOn = false ∨ (hbm = true ∧ s.hbmClocked = false) → exec (.coreClockLost hbm) s = .next s))

/-! ### Ingest, time bases and the Management Port (02, 03, 04) -/

/-- ETH_FRAME_RECEIVE: a frame that does not fit into the receive buffer is dropped whole; the others pass the checks of Table
4.2: an ingest packet joins the buffer, a command packet reaches the front end, a dropped frame is counted in its class with
its cause, and nothing else happens (04 R77, R98, R447).
INGEST_FRAME_DRAIN: the drain takes the oldest frame of the next half-port in turn (04 R447). A packet without the header of
R82 is malformed; one for a path that the programme does not ingest is a violation; a keep-alive refreshes its path's
last-seen time and carries nothing; samples of an owned orbit are placed granule by granule (04 R83 to R88). PATH_SILENT marks
a path whose last-seen time has fallen ING_SILENT_MS behind (04 R86). -/
def Obligations.FramesAndIngest : Prop :=
  (∀ (s : State) (h dt : Nat) (f : Bytes), s.ctlLive = true → s.ethIn h = true →
     let a := s.advance dt
     let counted := fun (t : State) (c : RxClass) => OnlyHp h a t ∧
       tget (t.hp h).rx c.ctorIdx 0 = satInc 32 (tget (s.hp h).rx c.ctorIdx 0) ∧
       (∀ c', c' ≠ c → tget (t.hp h).rx c'.ctorIdx 0 = tget (s.hp h).rx c'.ctorIdx 0) ∧
       (∀ b, c.cause = some b → bit (t.hp h).cause b = true) ∧ (t.hp h).buffer = (s.hp h).buffer ∧
       (t.hp h).state = (s.hp h).state
     (262144 < (s.hp h).held + f.length → ∃ t, exec (.ethFrameReceive h dt f) s = .next t ∧ counted t .overflow) ∧
     ((s.hp h).held + f.length ≤ 262144 →
       (∀ b, rxFate s h f = .ingest b → ∃ t, exec (.ethFrameReceive h dt f) s = .next t ∧ OnlyHp h a t ∧
         t.hp h = { s.hp h with
           buffer := (s.hp h).buffer ++ [{ length := f.length, oldest := s.orb.oldest, payload := b }] }) ∧
       (∀ o b, rxFate s h f = .command o b → exec (.ethFrameReceive h dt f) s = .next (frontEnd o b a)) ∧
       (∀ l m, rxFate s h f = .ptp l m → exec (.ethFrameReceive h dt f) s = .next (ptpMessage h (80 * f.length) l m a)) ∧
       (∀ c, rxFate s h f = .drop c → (c ∈ [RxClass.fcs, .runt, .oversize] → s.eff 0x0307 = 0) →
         ∃ t, exec (.ethFrameReceive h dt f) s = .next t ∧ counted t c))) ∧
  ((∀ (s : State) (h dt i : Nat) (f : IngestFrame) (rest : List IngestFrame) (p : Programme), s.coreLive = true →
     nextDrain s = some h → (s.hp h).buffer = f :: rest → s.slotIn .inEffect = some i → (s.slot i).prog = some p →
     let b := f.payload
     let path := fld b 4 2
     let a := { (s.advance dt).onHp h (fun q => { q with buffer := rest }) with ing := { s.ing with drainLast := h } }
     let shaped := 32 ≤ b.length ∧ fld b 0 2 = 0x4749 ∧ fld b 2 1 = 1
     (¬shaped → ∃ t, exec (.ingestFrameDrain dt) s = .next t ∧ OnlyHp h { a with ing := t.ing } t ∧
       (t.hp h).buffer = rest ∧ bit (t.hp h).cause 14 = true ∧ t.stickyBit 981 = true ∧
       t.ing = { s.ing with drainLast := h, malformed := satInc 32 s.ing.malformed }) ∧
     (shaped → fld b 16 4 = 0 → path ∈ p.localPaths →
       ∃ t, exec (.ingestFrameDrain dt) s = .next t ∧ t = { a with ing := t.ing } ∧
         (let q := tget t.ing.paths path {}
          let was := tget s.ing.paths path {}
          q.lastSeen = some (a.tb (s.eff 0x0544)).ns ∧ q.silent = false ∧ q.granules = was.granules ∧
          tget q.counters 2 0 = satInc 32 (tget was.counters 2 0)) ∧
         ∀ k, k ≠ path → tget t.ing.paths k {} = tget s.ing.paths k {}) ∧
     (shaped → fld b 16 4 = 0 → path ∉ p.localPaths →
       ∃ t, exec (.ingestFrameDrain dt) s = .next t ∧ OnlyHp h { a with ing := t.ing } t ∧ t.stickyBit 983 = true ∧
         t.ing = { s.ing with drainLast := h, unknownPath := satInc 32 s.ing.unknownPath }) ∧
     (shaped → fld b 16 4 ≠ 0 → s.judge (fld b 8 8) (fld b 16 4) = some (i, p) → path ∈ p.localPaths → fld b 3 1 = p.format →
       formatDefined p.format = true → packetShapeOk p.format b = true →
       exec (.ingestFrameDrain dt) s = .next (placePacket path i p f.oldest b (touchPath path a)))) ∧
   (∀ (s : State) (dt : Nat), nextDrain s = none → exec (.ingestFrameDrain dt) s = .next (s.advance dt)) ∧
   (∀ (s : State) (path dt seen : Nat), s.coreLive = true → (tget s.ing.paths path {}).lastSeen = some seen →
     (tget s.ing.paths path {}).silent = false →
     let a := s.advance dt
     let b := a.tb (s.eff 0x0544)
     b.hasTime = true → s.eff 0x0306 ≠ 0 →
     (seen + s.eff 0x0306 * 10 ^ 6 ≤ b.ns → ∃ t, exec (.pathSilent path dt) s = .next t ∧ t.stickyBit 984 = true ∧
       tget t.ing.paths path {} = { tget s.ing.paths path {} with silent := true } ∧
       (∀ k, k ≠ path → tget t.ing.paths k {} = tget s.ing.paths k {}) ∧ t = { a with ing := t.ing, ev := t.ev }) ∧
     (b.ns < seen + s.eff 0x0306 * 10 ^ 6 → exec (.pathSilent path dt) s = .next a)))

/-- MP_FRAME_RECEIVE: while the link is up, an ARP request for MP_IPV4 and an echo request are answered, a command packet
reaches the front end, and a frame that fails a check is counted and reported; a frame that arrives while the link trains is
lost and counted (04 R79, R97; 03 R72).
The Management Port's link: up with its cause and a gratuitous ARP; down with LINK_DOWN, a link loss and a new start; an
unlocked PLL takes it down with PLL_UNLOCK and EV_MP_PLL_UNLOCK, and the port restarts its link until the PLL has
locked, which it cannot without reference 0 (03 R71, R72, R446; 17 R384). -/
def Obligations.ManagementPort : Prop :=
  (∀ (s : State) (f : Bytes), s.boot.porstLow = false →
     let up := fun (x : Nat) => satInc 32 (tget s.mp.counters x 0)
     let only := fun (t : State) => t = { s with mp := { s.mp with counters := t.mp.counters }, ev := t.ev, sent := t.sent }
     (s.mp.state = .up →
       (∀ src mac ip tag, mpFate s f = .arp src mac ip tag → ∃ t, exec (.mpFrameReceive f) s = .next t ∧ only t ∧ t.ev = s.ev ∧
         t.sent = (255, ethFrame src s.macBase tag 0x0806 (arpPacket 2 s.macBase (s.eff 0x0310) mac ip)) :: s.sent ∧
         tget t.mp.counters 0 0 = up 0 ∧ tget t.mp.counters 1 0 = up 1 ∧ tget t.mp.counters 10 0 = up 10) ∧
       (∀ mac ip tag icmp, mpFate s f = .echo mac ip tag icmp → ∃ t, exec (.mpFrameReceive f) s = .next t ∧ only t ∧
         t.ev = s.ev ∧ t.sent = (255, ethFrame mac s.macBase tag 0x0800
           (icmpPacket (s.eff 0x0305) (s.eff 0x0310) ip (echoReply icmp))) :: s.sent ∧ tget t.mp.counters 11 0 = up 11) ∧
       (∀ o b, mpFate s f = .command o b → exec (.mpFrameReceive f) s = .next (frontEnd o b (bumpMp .received s))) ∧
       (∀ c, mpFate s f = .drop c → c ∉ [RxClass.pause, .notForDevice] → ∃ t, exec (.mpFrameReceive f) s = .next t ∧ only t ∧
         t.sent = s.sent ∧ t.stickyBit 987 = true) ∧
       (mpFate s f = .icmpDrop → ∃ t, exec (.mpFrameReceive f) s = .next t ∧ only t ∧ t.sent = s.sent ∧
         t.stickyBit 987 = true) ∧
       (mpFate s f = .drop .notForDevice → ∃ t, exec (.mpFrameReceive f) s = .next t ∧ only t ∧ t.sent = s.sent ∧
         t.ev = s.ev ∧ tget t.mp.counters 8 0 = up 8)) ∧
     (s.mp.state = .training → ∃ t, exec (.mpFrameReceive f) s = .next t ∧ only t ∧ t.sent = s.sent ∧ t.ev = s.ev ∧
       tget t.mp.counters 13 0 = up 13)) ∧
  (∀ (s : State) (signal locked : Bool), s.boot.porstLow = false →
     (s.mp.state ≠ .up → s.mp.pllLocked = true → ∃ t, exec (.mpLinkChange true signal) s = .next t ∧ t.mp.state = .up ∧
       bit t.mp.cause 0 = true ∧ t.stickyBit 992 = true ∧ t = { s with mp := t.mp, ev := t.ev, sent := t.sent } ∧
       (s.eff 0x0310 = 0 → t.sent = s.sent) ∧
       (s.eff 0x0310 ≠ 0 → t.sent = (255, ethFrame 0xFFFFFFFFFFFF s.macBase none 0x0806
         (arpPacket 1 s.macBase (s.eff 0x0310) 0 (s.eff 0x0310))) :: s.sent)) ∧
     (s.mp.state = .up → ∃ t, exec (.mpLinkChange false signal) s = .next t ∧ t.mp.state = .training ∧
       bit t.mp.cause 1 = true ∧ (signal = false → bit t.mp.cause 8 = true) ∧ t.stickyBit 992 = true ∧
       tget t.mp.counters 12 0 = satInc 32 (tget s.mp.counters 12 0) ∧ t = { s with mp := t.mp, ev := t.ev }) ∧
     (∃ t, exec .mpPllUnlock s = .next t ∧ t.mp.pllLocked = false ∧ t.mp.state = .training ∧ bit t.mp.cause 9 = true ∧
       t.stickyBit 739 = true ∧ t.stickyBit 992 = true ∧ t = { s with mp := t.mp, ev := t.ev }) ∧
     (s.mp.pllLocked = false → ∃ t, exec (.mpLinkRestart locked) s = .next t ∧ t.mp.pllLocked = (locked && !s.refsLost.contains 0) ∧
       t.mp.state = .training ∧ t = { s with mp := t.mp, ev := t.ev }) ∧
     (s.mp.pllLocked = true → exec (.mpLinkRestart locked) s = .next s))

/-- The PTP slave of a base (02 R23, R25, R27): a two-step Sync of the selected master waits for its Follow_Up with its receive
timestamp, a one-step Sync gives the origin time, a Follow_Up completes the Sync of its sequenceId, an Announce enters the
foreign-master table from which the best master is selected, a Delay_Resp to this port gives the path delay, and a message
that fits none of these is a violation, a Delay_Resp to a Delay_Req that the base never sent among them, while one to an
earlier Delay_Req than the one that waits changes nothing. DELAY_REQ_SEND sends a Delay_Req and keeps its sequenceId and transmit time. -/
def Obligations.PtpMessages : Prop :=
  (∀ (s : State) (h dt n : Nat) (layer2 : Bool) (m : Bytes), s.ptpLive h = true → 34 ≤ m.length → ptpWellFormed m = true →
    (s.ptpBases h (b2n layer2)).filter (fun k => (s.tb k).mode != .disabled && s.tbKey k 2 == fld m 4 1) = [n] →
    let a := s.advance dt
    let b := a.tb n
    let t2 := rxTime a n h 0
    let own := b.master = some (ptpSource m)
    let violated := fun (t : State) => OnlyTb n a t ∧ t.tb n = { b with violations := satInc 32 b.violations } ∧
      t.stickyBit (704 + 8 * n + 6) = true
    (ptpType m = 0 →
      (¬own → exec (.ptpSync h layer2 dt m) s = .next a) ∧
      (own → ptpTwoStep m = true → ∃ t rest, exec (.ptpSync h layer2 dt m) s = .next t ∧ OnlyTb n a t ∧ t.ev = s.ev ∧
        t.tb n = { b with syncWait := (ptpSeq m, t2, ptpCorrection m, ptpLog m, a.cycle) :: rest }) ∧
      (own → ptpTwoStep m = false → b.pathDelay = none → b.delayPair = none →
        ∃ t i, exec (.ptpSync h layer2 dt m) s = .next t ∧ OnlyTb n a t ∧ t.ev = s.ev ∧
          (let t1 := ptpTime m + ptpCorrection m
           t.tb n = { b with syncInterval := i, syncLast := some (t1, t2 - t1, false) }))) ∧
    (ptpType m = 8 → own →
      ((b.syncWait.find? fun w => w.1 == ptpSeq m && decide (a.cycle ≤ w.2.2.2.2 + 10 ^ 9)) = none →
        ∃ t, exec (.ptpFollowUp h layer2 dt m) s = .next t ∧ violated t) ∧
      (∀ seq r2 corr log c,
        (b.syncWait.find? fun w => w.1 == ptpSeq m && decide (a.cycle ≤ w.2.2.2.2 + 10 ^ 9)) = some (seq, r2, corr, log, c) →
        exec (.ptpFollowUp h layer2 dt m) s = .next (syncDone n (ptpTime m + corr + ptpCorrection m) r2 log
          (a.onTb n fun b => { b with syncWait := b.syncWait.filter fun w => w.1 != seq })))) ∧
    (ptpType m = 11 → ∃ t, exec (.ptpAnnounce h layer2 dt m) s = .next t ∧ OnlyTb n a t ∧ t.ev = s.ev ∧
      (let f := withForeign a (announceSet a m) b.foreign
       (t.tb n).foreign = f ∧ (t.tb n).master = (bestForeign f).map fun x => (x.clock, x.port)) ∧
      ((t.tb n).master ≠ b.master → (t.tb n).pathDelay = none ∧ (t.tb n).syncWait = [] ∧ (t.tb n).delayReq = none) ∧
      (t.tb n).mode = b.mode ∧ (t.tb n).count = b.count) ∧
    (ptpType m = 9 → (fld m 44 8, fld m 52 2) = ownIdentity s h →
      (b.sentSeq (ptpSeq m) = false → ∃ t, exec (.ptpDelayResp h layer2 dt m) s = .next t ∧ violated t) ∧
      (b.sentSeq (ptpSeq m) = true → (∀ t3, b.delayReq ≠ some (ptpSeq m, t3)) →
        exec (.ptpDelayResp h layer2 dt m) s = .next a) ∧
      (∀ t3 t1 d21, own → b.sentSeq (ptpSeq m) = true → b.delayReq = some (ptpSeq m, t3) → b.syncLast = some (t1, d21, true) →
        ∃ t, exec (.ptpDelayResp h layer2 dt m) s = .next t ∧ OnlyTb n a t ∧ t.ev = s.ev ∧
          t.tb n = { b with delayReq := none
                            pathDelay := some ((d21 + (ptpTime m - ptpCorrection m - t3)) / 2) }))) ∧
  (∀ (s : State) (n dt : Nat), n < 4 → s.tbKey n 0 = 1 → s.ptpLive (s.tbKey n 1) = true → (s.tb n).master ≠ none →
    (s.tb n).mode ≠ .disabled →
    let a := s.advance dt
    let h := s.tbKey n 1
    ∃ t frame, exec (.delayReqSend n dt) s = .next t ∧ t.sent = (h, frame) :: s.sent ∧
      t = { a with tbs := t.tbs, sent := t.sent } ∧ (∀ k, k ≠ n → t.tb k = a.tb k) ∧
      t.tb n = { a.tb n with delayReq := some ((s.tb n).delaySent % 2 ^ 16, a.nowUnits n + (planeConstants s h).2 * psOffset)
                             delaySent := (s.tb n).delaySent + 1 } ∧
      (s.tbKey n 3 = 1 → frame = ethFrame 0x011B19000000 (s.macOf h) none 0x88F7 (delayReqBytes s n h)))

/-- PPS_IN_EDGE for a base that alone takes PPS_IN (02 R26, R28, R30): a waiting step sets the second that was given, and a
base with time judges its distance from the nearest whole second: an outlier is rejected, any other offset accepted.
The pulse outputs (02 R45): in mode 1 a base whose time has just passed a whole second raises TB_PPS_OUT for
TBn_PPS_WIDTH_US unless a step withholds it, and PPS_OUT_PULSE_END lets it fall once that width has passed.
A lost source (02 R26, R29, R31): TB_SYNC_TIMEOUT and PPS_IN_LOST put a LOCKING or LOCKED base into HOLDOVER with its
event; EV_TB_REF_MISSING marks the bases with source 2, and REF10M_RETURN ends that with a new nominal_correction. -/
def Obligations.PulsesAndLostSources : Prop :=
  (∀ (s : State) (n dt refCycles : Nat), s.ctlLive = true → n < 4 → s.onPps n = true → (∀ k, k < 4 → k ≠ n → s.onPps k = false) →
     (s.tb n).mode ≠ .disabled →
     let a := s.advance dt
     let b := a.tb n
     let second := 10 ^ 9 * 2 ^ 32
     let frac := b.count % second
     let o : Int := (if 2 * frac ≤ second then (frac : Int) else (frac : Int) - second) * 250
     let near := ∀ c, b.ppsLast = some c → a.cycle - c ≤ 1500000000
     near →
     (∀ sec, (b.stepWait = some (.first sec) ∨ b.stepWait = some (.restep sec)) →
       ∃ t, exec (.ppsInEdge dt refCycles) s = .next t ∧ (t.tb n).mode = .locking ∧
         (t.tb n).count = sec * second % tbWrap ∧ (t.tb n).lastEpoch = nextEpochId b.lastEpoch ∧ (t.tb n).stepWait = none ∧
         t.stickyBit (704 + 8 * n) = true) ∧
     (b.stepWait = none → b.mode = .unset → s.tbKey n 8 = 0 → ∃ t, exec (.ppsInEdge dt refCycles) s = .next t ∧
       OnlyTb n a t ∧ (t.tb n).mode = .unset ∧ (t.tb n).accepted = satInc 32 b.accepted) ∧
     (b.stepWait = none → b.hasTime = true →
       ((s.tbKey n 5 * (2 ^ 33 * 125) : Nat) < o.natAbs → ∃ t, exec (.ppsInEdge dt refCycles) s = .next t ∧ OnlyTb n a t ∧
         (t.tb n).rejected = satInc 32 b.rejected ∧ (t.tb n).accepted = b.accepted ∧ (t.tb n).lastOffset = o ∧
         (t.tb n).count = b.count ∧
         (t.tb n).mode = if s.tbKey n 6 ≤ b.rejectedRun + 1 then .holdover else b.mode) ∧
       (o.natAbs ≤ (s.tbKey n 5 * (2 ^ 33 * 125) : Nat) → ∃ t, exec (.ppsInEdge dt refCycles) s = .next t ∧ OnlyTb n a t ∧
         (t.tb n).accepted = satInc 32 b.accepted ∧ (t.tb n).rejected = b.rejected ∧ (t.tb n).lastOffset = o ∧
         (t.tb n).acc = b.acc + o * 2 ^ (30 - 2 * s.tbKey n 0xE) ∧ (t.tb n).count = b.count ∧
         (t.tb n).mode ≠ .holdover))) ∧
  (∀ (s : State) (n dt : Nat), n < 4 →
     let a := s.advance dt
     let b := a.tb n
     let just := b.count % (10 ^ 9 * 2 ^ 32) < max dt 1 * b.increment
     (s.tbKey n 0xC = 1 → b.hasTime = true → b.ppsHold = none → just →
       ∃ t, exec (.ppsOutPulse n dt) s = .next t ∧ OnlyTb n a t ∧ t.ev = s.ev ∧
         t.tb n = { b with ppsOut := some (b.count + s.tbKey n 0xD * 1000 * 2 ^ 32) }) ∧
     (s.tbKey n 0xC = 1 → b.hasTime = true → ¬just → exec (.ppsOutPulse n dt) s = .next a) ∧
     (s.tbKey n 0xC = 0 → exec (.ppsOutPulse n dt) s = .next a) ∧
     (∀ e, b.ppsOut = some e → e ≤ b.count → ∃ t, exec (.ppsOutPulseEnd n dt) s = .next t ∧ OnlyTb n a t ∧ t.ev = s.ev ∧
       t.tb n = { b with ppsOut := none }) ∧
     (∀ e, b.ppsOut = some e → b.count < e → exec (.ppsOutPulseEnd n dt) s = .next a)) ∧
  (∀ (s : State) (n dt refCycles : Nat), n < 4 →
     let steered := fun (b : TimeBase) => b.mode = .locking ∨ b.mode = .locked
     let lost := fun (b : TimeBase) => { b with mode := .holdover, timeouts := satInc 32 b.timeouts }
     let a := s.advance dt
     (steered (s.tb n) → ∃ t, exec (.tbSyncTimeout n) s = .next t ∧ OnlyTb n s t ∧ t.tb n = lost (s.tb n) ∧
       t.stickyBit (704 + 8 * n + 2) = true) ∧
     (¬steered (s.tb n) → exec (.tbSyncTimeout n) s = .next s) ∧
     (∃ t, exec (.ppsInLost dt) s = .next t ∧ t = { a with tbs := t.tbs, ev := t.ev } ∧
       let silent := s.onPps n = true ∧ ∃ c, (s.tb n).ppsLast = some c ∧ c + 1500000000 ≤ a.cycle
       ((silent ∧ steered (s.tb n)) → t.tb n = lost (a.tb n) ∧ t.stickyBit (704 + 8 * n + 2) = true) ∧
       (¬(silent ∧ steered (s.tb n)) → t.tb n = a.tb n)) ∧
     (∃ t, exec .evTbRefMissing s = .next t ∧ t = { s with tbs := t.tbs, ev := t.ev } ∧
       (s.tbKey n 0 = 2 → (s.tb n).mode ≠ .disabled → (s.tb n).refMissing = false →
         t.tb n = { s.tb n with refMissing := true } ∧ t.stickyBit (704 + 8 * n + 7) = true) ∧
       (s.tbKey n 0 ≠ 2 → t.tb n = s.tb n)) ∧
     (∃ t, exec (.ref10mReturn refCycles) s = .next t ∧ t = { s with tbs := t.tbs } ∧
       (s.tbKey n 0 = 2 → (s.tb n).refMissing = true → 0 < refCycles →
         t.tb n = { s.tb n with refMissing := false, nominalNum := 10 ^ 9 - (refCycles : Int), nominalDen := refCycles
                                increment := (t.tb n).increment }) ∧
       ((s.tbKey n 0 ≠ 2 ∨ (s.tb n).refMissing = false) → t.tb n = s.tb n)))

/-- ALARM_FIRE acts on every alarm that its base's time has reached and on no other: the event where its mask asks for it, a
single alarm disarmed, a periodic one armed for one period on (02 R46, R47).
Orbits (02 R38 to R44, 06 R145): ORBIT_DEADLINE_CLOSE closes the orbits whose deadline has passed, in order;
FRAME_DEADLINE_CLOSE the frames; ORBIT_STAMP takes an orbit's stamp from TB0; each does nothing before its time. -/
def Obligations.AlarmsAndOrbits : Prop :=
  (∀ (s : State) (dt i : Nat) (x : Alarm), i < 16 → tfind s.alarms i = some x →
     let a := s.advance dt
     let b := a.tb (i / 4)
     ∃ t, exec (.alarmFire dt) s = .next t ∧ t.tbs = a.tbs ∧
       (b.hasTime = true → x.time ≤ b.count →
         (x.period = 0 → tfind t.alarms i = none) ∧
         (x.period ≠ 0 → tfind t.alarms i = some { x with time := x.time + x.period * 2 ^ 32 }) ∧
         (bit x.mask 0 = true → t.stickyBit (704 + 8 * (i / 4) + 5) = true)) ∧
       (b.hasTime = false ∨ b.count < x.time → tfind t.alarms i = some x)) ∧
  (∀ (s : State) (dt o n : Nat),
     let a := s.advance dt
     (s.orb.oldest = some o → lastDue a (deadlinePassed a 0) 0 o 4 = some n →
       ∃ t, exec (.orbitDeadlineClose dt) s = .next t ∧ t.stickyBit 976 = true ∧ n ∈ t.orb.byDeadline ∧
         t.orb.oldest = (if (s.progAt (n + 1)).isSome = true then some (n + 1) else none) ∧ t.tbs = a.tbs ∧ t.prg = s.prg) ∧
     (s.orb.oldest = some o → lastDue a (deadlinePassed a 0) 0 o 4 = none → exec (.orbitDeadlineClose dt) s = .next a) ∧
     (s.orb.oldest = none → exec (.orbitDeadlineClose dt) s = .next a) ∧
     (s.ct.frame = some o →
       let width := match s.orb.oldest with | some i => i + 4 - o | none => 4
       let due := lastDue a (fun n => deadlinePassed a ((a.terms n).frameSlackUs * 1000) n) (a.currentTerms.frameSlackUs * 1000) o width
       (due = some n → ∃ t k, exec (.frameDeadlineClose dt) s = .next t ∧ t.ct.frame = some k ∧ n < k ∧ t.tbs = a.tbs ∧
         t.prg = s.prg) ∧
       (due = none → exec (.frameDeadlineClose dt) s = .next a)) ∧
     (s.ct.frame = none → exec (.frameDeadlineClose dt) s = .next a) ∧
     (let due := (List.range 4).flatMap fun b => stampsDue a b (a.countBefore b dt)
      (due = [] → exec (.orbitStamp dt) s = .next a) ∧
      (∀ k ∈ due, ∃ t, exec (.orbitStamp dt) s = .next t ∧ tfind t.orb.stamps k = some a.stamp ∧ k ∈ t.orb.stampTaken ∧
        t = { a with orb := t.orb, tbs := t.tbs })))

/-! ### Half-ports and Midway (03, 06) -/

/-- Training (03 R57 to R59): HP_RETRY_TIMER starts a new attempt in the configured mode, HP_TRAINING_COMPLETE brings the
half-port UP, or into TEST, once a Midway link has exchanged SEEN too, and HP_TRAINING_TIMEOUT counts a failed attempt that is
retried after HP_RETRY_MS until HP_RETRAIN_LIMIT in a row give FAULT. The halves of a full port act together: both as of the
last training, and for a new attempt those that the words name, with the partner that they leave out (03 R55, R56).
A lost lane reference puts every half-port of its group that is not OFF into FAULT with PLL_UNLOCK, and with reference 0 the
Management Port's PLL unlocks too; its return lets the half-ports in FAULT train again (03 R53, R71). -/
def Obligations.HalfPortTraining : Prop :=
  (∀ (s : State) (h : Nat), s.portLive h = true →
     let others := fun (t : State) => t = { s with hps := t.hps, ev := t.ev } ∧ ∀ k, k ∉ s.hpGroup h → t.hp k = s.hp k
     let next := s.cfgGroup h ++ s.leftPartner h
     let busy := fun (u : Nat) => (s.hp u).state = .training ∧ (s.hp u).retryWait = false
     ((s.hp h).state = .training → (s.hp h).retryWait = true → (s.hp h).stopped = false → (s.hp h).loopKind = 0 →
       ∃ t, exec (.hpRetryTimer h) s = .next t ∧ t = { s with hps := t.hps, ev := t.ev, sent := t.sent } ∧
         (∀ k, k ∉ next → t.hp k = s.hp k) ∧ ∀ u ∈ next,
         let cfg := s.hpConfig u
         ((s.hp u).state = .fault → t.hp u = s.hp u) ∧ ((s.hp u).state ≠ .fault → ((cfgMode cfg = 0 ∨ s.waitsPartner u = true) → (t.hp u).state = .off) ∧
         (cfgMode cfg ≠ 0 → s.waitsPartner u = false → u / 16 ∈ s.refsLost →
           (t.hp u).state = .fault ∧ bit (t.hp u).cause 9 = true) ∧
         (cfgMode cfg ≠ 0 → s.waitsPartner u = false → u / 16 ∉ s.refsLost → (t.hp u).state = .training ∧
           (t.hp u).trained = cfg ∧ (t.hp u).retryWait = false ∧ (t.hp u).attempts = satInc 32 (s.hp u).attempts ∧
           (t.hp u).cause = (s.hp u).cause))) ∧
     ((s.hp h).state ≠ .training ∨ (s.hp h).retryWait = false → exec (.hpRetryTimer h) s = .next s) ∧
     (∀ rtt results, busy h →
       let m := (s.hp (s.linkOf h)).mw
       ((∀ u ∈ s.hpGroup h, busy u) → (s.hp h).midway = false ∨ m.seenSent = true ∧ m.seenByPartner = true →
         ∃ t, exec (.hpTrainingComplete h rtt results) s = .next t ∧ ∀ u ∈ s.hpGroup h,
           (t.hp u).state = (if cfgMode (s.hp u).trained = 6 then .test else .up) ∧ (t.hp u).fails = 0 ∧
           (cfgMode (s.hp u).trained ≠ 6 → bit (t.hp u).cause 0 = true)) ∧
       ((∃ u ∈ s.hpGroup h, ¬busy u) ∨ (s.hp h).midway = true ∧ (m.seenSent = false ∨ m.seenByPartner = false) →
         exec (.hpTrainingComplete h rtt results) s = .next s)) ∧
     (∃ t, exec (.hpTrainingTimeout h) s = .next t ∧ others t ∧ ∀ u ∈ s.hpGroup h,
       (busy u → (t.hp u).failed = satInc 32 (s.hp u).failed ∧ (t.hp u).fails = (s.hp u).fails + 1 ∧
         bit (t.hp u).cause 2 = true ∧
         (s.eff 0x0284 ≤ (s.hp u).fails + 1 → (t.hp u).state = .fault ∧ bit (t.hp u).cause 3 = true) ∧
         ((s.hp u).fails + 1 < s.eff 0x0284 → (t.hp u).state = .training ∧ (t.hp u).retryWait = true)) ∧
       (¬busy u → t.hp u = s.hp u))) ∧
  (∀ (s : State) (k : Nat), s.boot.porstLow = false →
     let others := fun (t : State) => t = { s with hps := t.hps, refsLost := t.refsLost, ev := t.ev, mp := t.mp, sent := t.sent } ∧
       ∀ h, h / 16 ≠ k → t.hp h = s.hp h
     (k < refsOf s.fuses.variant → ∃ t, exec (.laneReferenceLost k) s = .next t ∧ others t ∧ k ∈ t.refsLost ∧
       t.stickyBit (744 + k) = true ∧ t.sent = s.sent ∧ ((k ≠ 0 ∨ s.mp.pllLocked = false) → t.mp = s.mp) ∧
       (k = 0 → s.mp.pllLocked = true → t.mp.pllLocked = false ∧ t.mp.state = .training ∧ bit t.mp.cause 9 = true ∧
         t.stickyBit 739 = true) ∧ ∀ h, h / 16 = k →
         ((s.hp h).state = .off → t.hp h = s.hp h) ∧
         ((s.hp h).state ≠ .off → (t.hp h).state = .fault ∧ bit (t.hp h).cause 9 = true)) ∧
     (k ∈ s.refsLost → ∃ t, exec (.laneReferenceReturn k) s = .next t ∧ others t ∧ k ∉ t.refsLost ∧ t.mp = s.mp ∧
       ∀ h, h / 16 = k →
       ((s.hp h).state ≠ .fault → t.hp h = s.hp h) ∧
       ((s.hp h).state = .fault → (s.hp h).stopped = true → (t.hp h).state = .off ∧ (t.hp h).fails = 0) ∧
       ((s.hp h).state = .fault → (s.hp h).stopped = false → cfgMode (s.hpConfig h) ≠ 0 → s.waitsPartner h = false → (t.hp h).state = .training ∧
         (t.hp h).fails = 0 ∧ (t.hp h).attempts = satInc 32 (s.hp h).attempts)) ∧
     (k ∉ s.refsLost → exec (.laneReferenceReturn k) s = .next s))

/-- Link losses (03 R60, R62): a lane without signal, a lost lock and a figure below LANE_EYE_FAIL take a half-port in UP,
or in TEST, with its partner in a full port, back to training after HP_RETRY_MS, with LINK_DOWN and a counted loss; a lost lock
because the lane PLL has unlocked also sets PLL_UNLOCK, in electrical idle that alone (03 Table 3.7). An expected squelch is no loss (06 R149), nor is a dark
lane of a half-port whose near-end loopback ignores its balls (03 R67).
Background eyes, errors and FEC (03 R61 to R63, R68 to R71): a refreshed figure is 4 times the smaller of H and V, at most 255, a crossing
below LANE_EYE_WARN sets EYE_WARN, and the errors seen since the last one are counted: sync-header errors, or the PRBS errors of
mode 6, and corrected codewords; the Management Port's lane has a figure too. A scan that ends gives the pending LANE_EYE its final reply, and an uncorrectable codeword
is counted with FEC_UNCORRECTED. -/
def Obligations.LinkLossesAndEyes : Prop :=
  (∀ (s : State) (n : Nat) (lane : Option Nat) (pll : Bool),
     let h := n / 4
     s.portLive h = true →
     let others := fun (t : State) => t = { s with hps := t.hps, ev := t.ev } ∧ ∀ k, k ∉ s.hpGroup h → t.hp k = s.hp k
     let lost := fun (t : State) => ∀ u ∈ s.hpGroup h, (s.hp u).inService = true → (t.hp u).state = .training ∧
       (t.hp u).retryWait = true ∧ (t.hp u).linkLosses = satInc 32 (s.hp u).linkLosses ∧ bit (t.hp u).cause 1 = true
     ((s.hp h).rxIdle = false → (s.hp h).state ≠ .off → (s.hp h).state ≠ .idle → (s.hp h).nearLoop = false →
       ∃ t, exec (.laneSignalLoss n) s = .next t ∧ others t ∧ lost t ∧ bit (t.hp h).cause 8 = true ∧
         (t.lane n).signal = false ∧ (t.lane n).cdrLock = false ∧ (t.lane n).blockLock = false) ∧
     ((s.hp h).rxIdle = true ∨ (s.hp h).nearLoop = true → exec (.laneSignalLoss n) s = .next s) ∧
     ((s.hp h).state = .off → exec (.laneLockLoss h lane pll) s = .next s) ∧
     ((s.hp h).rxIdle = true → (s.hp h).state ≠ .off → ∃ t, exec (.laneLockLoss h lane pll) s = .next t ∧ OnlyHp h s t ∧
       t.hp h = { s.hp h with cause := (t.hp h).cause } ∧ (pll = true → bit (t.hp h).cause 9 = true) ∧ (pll = false → t = s)) ∧
     ((s.hp h).rxIdle = false → (s.hp h).state ≠ .off → ∃ t, exec (.laneLockLoss h lane pll) s = .next t ∧ others t ∧ lost t ∧
       (pll = true → bit (t.hp h).cause 9 = true)) ∧
     ((s.hp h).inService = true → (s.lane n).eye < s.eff 0x0281 →
       ∃ t, exec (.eyeFail n) s = .next t ∧ others t ∧ lost t ∧ bit (t.hp h).cause 5 = true) ∧
     (((s.hp h).inService = false ∨ s.eff 0x0281 ≤ (s.lane n).eye) → exec (.eyeFail n) s = .next s)) ∧
  (∀ (s : State) (n x y sync prbs fixed : Nat),
     let h := n / 4
     let test := cfgMode (s.hp h).trained = 6
     (s.boot.porstLow = false → s.mp.state = .up → exec (.eyeFigureRefresh 512 x y none sync prbs fixed) s =
       .next { s with mp := { s.mp with lane := { s.mp.lane with eye := min 255 (4 * min x y) } } }) ∧
     (s.portLive h = true →
     ((s.hp h).inService = true → ∃ t, exec (.eyeFigureRefresh n x y none sync prbs fixed) s = .next t ∧ OnlyHp h s t ∧
       t.lane n = { s.lane n with
         eye := min 255 (4 * min x y)
         syncErrors := if test then (s.lane n).syncErrors else satAdd 32 (s.lane n).syncErrors sync
         prbsErrors := if test ∧ cfgPrbs (s.hp h).trained ≠ 0 then satAdd 32 (s.lane n).prbsErrors prbs
           else (s.lane n).prbsErrors } ∧
       (t.hp h).fecCorrected = (if cfgFec (s.hp h).trained then satAdd 64 (s.hp h).fecCorrected fixed
         else (s.hp h).fecCorrected) ∧ (∀ k, k ≠ n → t.lane k = s.lane k) ∧
       (s.eff 0x0280 ≤ (s.lane n).eye → min 255 (4 * min x y) < s.eff 0x0280 → bit (t.hp h).cause 4 = true) ∧
       ((s.lane n).eye < s.eff 0x0280 ∨ s.eff 0x0280 ≤ min 255 (4 * min x y) → (t.hp h).cause = (s.hp h).cause)) ∧
     ((s.hp h).inService = true → (s.hp h).scanLane = none → ∀ ctle dfe x' y',
       ∃ t, exec (.eyeFigureRefresh n x y (some (ctle, dfe, x', y')) sync prbs fixed) s = .next t ∧ OnlyHp h s t ∧
         (t.lane n).eye = min 255 (4 * min x y) ∧
         (min 255 (4 * min x y) ≤ min 255 (4 * min x' y') → (t.lane n).ctle = ctle % 16 ∧ (t.lane n).dfe = dfe) ∧
         (min 255 (4 * min x' y') < min 255 (4 * min x y) →
           (t.lane n).ctle = (s.lane n).ctle ∧ (t.lane n).dfe = (s.lane n).dfe)) ∧
     (∀ counts, (s.hp h).scanLane = some (n % 4) → ∃ t, exec (.laneEyeScanComplete n x y counts) s = .next t ∧
       t.hp h = { s.hp h with scanLane := none } ∧ (∀ k, k ≠ h → t.hp k = s.hp k) ∧
       (∀ c, (s.cmd.pending.find? fun c => c.work == .laneEye n) = some c →
         t.cmd.pending = dropFirst (fun z => z == c) s.cmd.pending ∧
         ∃ j, t.cmd.journal.head? = some j ∧ j.kind = 1 ∧ j.status = 0 ∧ j.session = c.session ∧ j.seq = c.seq)) ∧
     (∀ counts, (s.hp h).scanLane ≠ some (n % 4) → exec (.laneEyeScanComplete n x y counts) s = .next s) ∧
     (cfgFec (s.hp h).trained = true → (s.hp h).inService = true → ∃ t, exec (.uncorrectableCodeword h) s = .next t ∧
       OnlyHp h s t ∧ (t.hp h).fecUncorrected = satInc 64 (s.hp h).fecUncorrected ∧ bit (t.hp h).cause 7 = true ∧
       (t.hp h).state = (s.hp h).state)))

/-- Electrical idle of a Midway link (03 R64 to R66; 06 R149): its quiet transmit direction announces idle in a LINK block and
enters it; a direction leaves it by a fast exit within LANE_IDLE_HOLD_MS and by training after it; the keep-alive exit sends
one LINK block; a failed exit, that of a mode-6 half-port into TEST too, sets IDLE_EXIT_FAIL and trains. -/
def Obligations.ElectricalIdle : Prop :=
  ∀ (s : State) (h dt : Nat) (lanes : List Nat),
    let b := s.linkOf h
    let a := s.advance dt
    let others := fun (t : State) => ∀ k, k ∉ s.linkPorts b → t.hp k = s.hp k
    let counted := fun (t : State) => ∀ u ∈ s.linkPorts b, ∀ k, k < 4 →
      (tget (t.hp u).lanes k {}).idleExits = satInc 32 (tget (s.hp u).lanes k {}).idleExits
    (s.mwUp b = true →
      ((s.hp b).txIdle = false → s.eff 0x0407 = 1 → mwQuiet s b = true →
        ∃ t body, exec (.electricalIdleEnter h) s = .next t ∧ t = { s with hps := t.hps, sent := t.sent } ∧ others t ∧
          t.sent = (b, 0b10#8 :: 0xC3#8 :: body) :: s.sent ∧ body.length = 7 ∧ bit (fld body 4 1) 1 = true ∧
          ∀ u ∈ s.linkPorts b, (t.hp u).txIdle = true ∧ (t.hp u).idleSince = s.cycle) ∧
      (((s.hp b).txIdle = true ∨ s.eff 0x0407 = 0 ∨ mwQuiet s b = false) → exec (.electricalIdleEnter h) s = .next s) ∧
      ((s.hp b).rxIdle = true → ∃ t, exec (.fastExit h false dt) s = .next t ∧ t = { a with hps := t.hps } ∧ others t ∧
        counted t ∧ ∀ u ∈ s.linkPorts b, (t.hp u).rxIdle = false ∧ (t.hp u).txIdle = (s.hp u).txIdle) ∧
      ((s.hp b).txIdle = true → a.cycle ≤ (s.hp b).idleSince + s.eff 0x0285 * 10 ^ 6 →
        ∃ t, exec (.fastExit h true dt) s = .next t ∧ t = { a with hps := t.hps } ∧ others t ∧ counted t ∧
          ∀ u ∈ s.linkPorts b, (t.hp u).txIdle = false ∧ (t.hp u).rxIdle = (s.hp u).rxIdle) ∧
      ((s.hp b).txIdle = true → (s.hp b).idleSince + s.eff 0x0285 * 10 ^ 6 < a.cycle →
        exec (.fastExit h true dt) s = .next (retrain b a)) ∧
      ((s.hp b).txIdle = true → ∃ t body, exec (.idleKeepaliveExit h dt) s = .next t ∧
        t = { a with hps := t.hps, sent := t.sent } ∧ others t ∧ counted t ∧ t.sent = (b, 0b10#8 :: 0xC3#8 :: body) :: s.sent ∧
        bit (fld body 4 1) 1 = false ∧ ∀ u ∈ s.linkPorts b, (t.hp u).txIdle = false)) ∧
    (s.portLive h = true → ((s.hp h).midway = true ∧ (s.hp h).state = .up ∨ (s.hp h).state = .test) → (s.hp h).stopped = false →
      (s.hp h).loopKind = 0 → cfgMode (s.hpConfig h) ≠ 0 → s.waitsPartner h = false → h / 16 ∉ s.refsLost →
      ∃ t, exec (.idleExitFail h lanes) s = .next t ∧ t = { s with hps := t.hps, ev := t.ev, sent := t.sent } ∧
        bit (t.hp h).cause 6 = true ∧ (t.hp h).state = .training ∧ (t.hp h).attempts = satInc 32 (s.hp h).attempts)

/-- TRAIN_A and TRAIN_B blocks (06 R133, R137 to R139): a block with a bad CRC-8 is ignored and counted; TRAIN_A takes the
partner's identity, its lane and SEEN, the half-ports send SEEN once every lane has named another LANE, and another mesh or the
device's own number fails the attempt with WRONG_PEER; TRAIN_B resets both sequence states where a side was reset or a wanted
number lies outside the other's range, and otherwise replays from the partner's NEXT_SEQ. -/
def Obligations.MidwayTraining : Prop :=
  ∀ (s : State) (h k : Nat) (body : Bytes),
    let b := s.linkOf h
    let m := (s.hp b).mw
    let full := cfgMode (s.hp b).trained == 5
    let v := fld body 0 7
    let lane := bits v 55 53
    let right := bits v 47 32 = m.ownMesh ∧ bit v 26 = full ∧ bits v 52 48 ≠ m.ownDevice
    s.mwTraining b = true →
    (bodyOk body = false → ∃ t, exec (.trainA h body k) s = .next t ∧ exec (.trainB h body) s = .next t ∧ OnlyHp b s t ∧
      bit (t.hp b).cause 14 = true ∧ tget (t.hp b).mw.counters 9 0 = satInc 32 (tget m.counters 9 0) ∧
      (t.hp b).state = .training ∧ (t.hp b).mw = { m with counters := (t.hp b).mw.counters }) ∧
    (bodyOk body = true → right → (full = true ∨ lane < 4) → ∃ t, exec (.trainA h body k) s = .next t ∧
      t = { s with hps := t.hps, sent := t.sent } ∧ (∀ u, u ≠ b → t.hp u = s.hp u) ∧
      (t.hp b).mw.partner = some (bits v 52 48) ∧
      (t.hp b).mw.lanesSeen = tput m.lanesSeen (4 * (h - b) + k % 4) lane ∧
      (t.hp b).mw.seenByPartner = (m.seenByPartner || bit v 24) ∧ (t.hp b).mw.partnerReset = (m.partnerReset || bit v 25) ∧
      (t.hp b).mw.seenSent = (m.seenSent || lanesOrdered (t.hp b).mw.lanesSeen (if full then 8 else 4)) ∧
      (m.seenSent = (t.hp b).mw.seenSent → t.sent = s.sent) ∧
      (m.seenSent ≠ (t.hp b).mw.seenSent → t.sent ≠ s.sent) ∧
      (t.hp b).state = .training ∧ (t.hp b).mw.expected = m.expected ∧ (t.hp b).mw.replay = m.replay) ∧
    (bodyOk body = true → ¬right → ∃ t, exec (.trainA h body k) s = .next t ∧ bit (t.hp b).cause 13 = true ∧
      (t.hp b).failed = satInc 32 (s.hp b).failed ∧ t = { s with hps := t.hps, ev := t.ev }) ∧
    (let next := fld body 0 2
     let oldest := match m.replay with | f :: _ => f.seq | [] => m.nextSeq
     let inRange := (next + 2 ^ 16 - oldest) % 2 ^ 16 ≤ (m.nextSeq + 2 ^ 16 - oldest) % 2 ^ 16 ∧
       (m.expected + 2 ^ 16 - fld body 2 2) % 2 ^ 16 ≤ s.linkBuffers b
     (bodyOk body = true → m.partnerReset = true ∨ m.trainedOnce = false ∨ replayStale s m = true ∨ ¬inRange →
       ∃ t, exec (.trainB h body) s = .next t ∧ OnlyHp b s t ∧ (t.hp b).mw.nextSeq = 0 ∧ (t.hp b).mw.replay = [] ∧
         (t.hp b).mw.expected = 0 ∧ (t.hp b).mw.creditLimit = s.linkBuffers b ∧ (t.hp b).mw.staged = m.staged ∧
         bit (t.hp b).cause 15 = true ∧
         tget (t.hp b).mw.counters 14 0 = satAdd 32 (tget m.counters 14 0) m.replay.length) ∧
     (bodyOk body = true → m.partnerReset = false → m.trainedOnce = true → replayStale s m = false → inRange →
       ∃ t, exec (.trainB h body) s = .next t ∧ OnlyHp b s t ∧ t.ev = s.ev ∧
         (t.hp b).mw.replay = ackTo next m.replay ∧ (t.hp b).mw.nextSeq = m.nextSeq ∧ (t.hp b).mw.expected = m.expected ∧
         (t.hp b).mw.resendFrom = if (t.hp b).mw.replay = [] then none else some next))

/-- LINK blocks and a link's health (06 R134, R140 to R142, R148, R151): a received LINK block acknowledges frames, moves the
credit and, with a new NAK, starts a resend; a sent one carries the next expected SEQ less one and CREDIT_LIMIT, and every 32nd
block is one; a replay timeout resends until MW_REPLAY_LIMIT and then loses the link; a link that is not UP for MW_PEER_LOST_MS loses its peer. -/
def Obligations.MidwayLinkBlocks : Prop :=
  ∀ (s : State) (h : Nat) (body : Bytes),
    let b := s.linkOf h
    let m := (s.hp b).mw
    let others := fun (t : State) => ∀ k, k ∉ s.linkPorts b → t.hp k = s.hp k
    (s.mwUp b = true →
      (bodyOk body = true →
        let ack := fld body 0 2
        let nak := bit (fld body 4 1) 0
        ∃ t, exec (.mwLinkBlock h body) s = .next t ∧ t = { s with hps := t.hps } ∧ others t ∧
          (t.hp b).mw.replay = ackTo ((ack + 1) % 2 ^ 16) m.replay ∧ (t.hp b).mw.creditLimit = fld body 2 2 ∧
          (t.hp b).mw.expected = m.expected ∧ (∀ u ∈ s.linkPorts b, (t.hp u).rxIdle = bit (fld body 4 1) 1) ∧
          (nak = true → m.nakActed ≠ some ack → (t.hp b).mw.replay ≠ [] →
            (t.hp b).mw.resendFrom = some ((ack + 1) % 2 ^ 16) ∧ (t.hp b).mw.nakActed = some ack)) ∧
      ((s.hp b).txIdle = false → ∀ idles, ∃ t out, exec (.mwLinkBlockSend h idles) s = .next t ∧
        let link := (b, 0b10#8 :: 0xC3#8 :: out)
        t.sent = link :: (sendBlocks b (List.replicate idles idleBlock) s).sent ∧
        (idles = 0 → t.sent = link :: s.sent) ∧
        (idles = 1 → m.blocks < 31 → t.sent = link :: (b, idleBlock) :: s.sent) ∧
        (idles = 1 → m.blocks = 31 → t.sent = link :: (b, idleBlock) :: link :: s.sent) ∧
        t = { s with hps := t.hps, sent := t.sent } ∧ OnlyHp b s { s with hps := t.hps } ∧ bodyOk out = true ∧
        fld out 0 2 = (m.expected + 65535) % 65536 ∧ fld out 2 2 = creditNow s b ∧
        bit (fld out 4 1) 0 = m.nakOut ∧ bit (fld out 4 1) 1 = false) ∧
      (s.eff 0x0404 = 0 → ∃ t, exec (.mwControlError h) s = .next t ∧ OnlyHp b s t ∧ bit (t.hp b).cause 14 = true ∧
        tget (t.hp b).mw.counters 9 0 = satInc 32 (tget m.counters 9 0) ∧ (t.hp b).state = .up ∧
        (t.hp b).mw.expected = m.expected) ∧
      (m.replay = [] → exec (.mwReplayTimeout h) s = .next s) ∧
      (∀ f rest, m.replay = f :: rest → m.resends < s.eff 0x0403 → ∃ t, exec (.mwReplayTimeout h) s = .next t ∧ OnlyHp b s t ∧
        t.ev = s.ev ∧ (t.hp b).mw.resendFrom = some f.seq ∧ (t.hp b).mw.resends = m.resends + 1 ∧
        (t.hp b).mw.replay = m.replay ∧ (t.hp b).state = .up) ∧
      (m.replay ≠ [] → s.eff 0x0403 ≤ m.resends → ∃ t, exec (.mwReplayTimeout h) s = .next t ∧
        (t.hp b).state = .training ∧ (t.hp b).retryWait = true ∧ bit (t.hp b).cause 12 = true ∧
        bit (t.hp b).cause 1 = true ∧ (t.hp b).mw.replay = m.replay) ∧
      exec (.evMwPeerLost h) s = .next s) ∧
    (s.portLive b = true → (s.hp b).midway = true → (s.hp b).state ≠ .up → m.peerLost = false →
      ∃ t, exec (.evMwPeerLost h) s = .next t ∧ OnlyHp b s t ∧ t.stickyBit 994 = true ∧
        t.hp b = { s.hp b with mw := { m with peerLost := true } })

/-- MW_FRAME_SEND: the link resends from its replay buffer, or sends the oldest staged frame with the next SEQ while credit and
replay room are there, and keeps it for replay (06 R140, R141). A frame goes out as a START block and its data blocks, with a LINK block in every 32nd
place (06 R134, R135); one to be resent whose orbit is too old goes out empty (R143; the model's choice, log entry 131).
A received frame (06 R135, R140 to R146): one with a bad CRC, an unexpected SEQ or beyond the credit is refused with a NAK;
any other is acknowledged, and then counted and dropped on a link that the programme does not list, a DATA frame of a frame
already closed reported late, other data placed, and a CLOSE marked for its link. Data blocks outside a frame are malformed. -/
def Obligations.MidwayFrames : Prop :=
  (∀ (s : State) (h : Nat),
     let b := s.linkOf h
     let m := (s.hp b).mw
     s.mwUp b = true → (s.hp b).txIdle = false → m.wrongPeer = false →
     let stale := fun (orbit : Nat) => ∃ o, s.orb.oldest = some o ∧ orbit + 4 ≤ o
     let put := fun (bytes : Bytes) => (sendBlocks b (frameBlocks bytes) s).sent
     (∀ q f, m.resendFrom = some q → (m.replay.find? fun x => x.seq == q) = some f →
       (¬stale f.orbit ∨ f.emptied = true →
         ∃ t, exec (.mwFrameSend h) s = .next t ∧ t = { s with hps := t.hps, sent := t.sent } ∧
           (∀ k, k ≠ b → t.hp k = s.hp k) ∧ t.sent = put f.bytes ∧ (t.hp b).mw.replay = m.replay ∧
           (t.hp b).mw.nextSeq = m.nextSeq ∧ (t.hp b).mw.staged = m.staged) ∧
       (stale f.orbit → f.emptied = false →
         let empty := mwFrameBytes { close := false, orbit := f.orbit, offset := 0, payload := [] } f.seq
         ∃ t, exec (.mwFrameSend h) s = .next t ∧ (∀ k, k ≠ b → t.hp k = s.hp k) ∧ t.sent = put empty ∧
           (t.hp b).mw.nextSeq = m.nextSeq ∧ (t.hp b).mw.staged = m.staged ∧ t.stickyBit 998 = true ∧
           tget (t.hp b).mw.counters 13 0 = satInc 32 (tget m.counters 13 0) ∧
           (t.hp b).mw.replay = m.replay.map fun x =>
             if x.seq = f.seq then { f with bytes := empty, emptied := true } else x)) ∧
     (∀ f rest, m.resendFrom = none → m.staged = f :: rest → ¬stale f.orbit →
       (f.close = true → f.orbit ∉ m.discarded) →
       let room := (m.creditLimit + 2 ^ 16 - m.nextSeq) % 2 ^ 16
       (1 ≤ room → room ≤ 32767 → m.replay.length < s.linkBuffers b →
         ∃ t, exec (.mwFrameSend h) s = .next t ∧ t = { s with hps := t.hps, sent := t.sent } ∧
           (∀ k, k ≠ b → t.hp k = s.hp k) ∧ t.sent = put (mwFrameBytes f m.nextSeq) ∧
           (t.hp b).mw.nextSeq = (m.nextSeq + 1) % 2 ^ 16 ∧ (t.hp b).mw.staged = rest ∧
           (t.hp b).mw.replay = m.replay ++
             [{ seq := m.nextSeq, orbit := f.orbit, bytes := mwFrameBytes f m.nextSeq, close := f.close }] ∧
           tget (t.hp b).mw.counters 0 0 = satInc 32 (tget m.counters 0 0)) ∧
       ((room = 0 ∨ 32767 < room ∨ s.linkBuffers b ≤ m.replay.length) → ∃ t, exec (.mwFrameSend h) s = .next t ∧
         t = { s with hps := t.hps } ∧ ∀ k, t.hp k = s.hp k))) ∧
  (∀ (s : State) (h : Nat) (f : Bytes),
     let b := s.linkOf h
     let m := (s.hp b).mw
     let head := fld f 0 8
     let len := bits head 45 36
     let seq := bits head 61 46
     let kind := bits head 63 62
     let pay := slice f 8 (4 * len)
     let room := (m.granted + 2 ^ 16 - seq) % 2 ^ 16
     let whole := 12 + 4 * len ≤ f.length ∧ fld f (8 + 4 * len) 4 = crc32c (f.take (8 + 4 * len))
     let taken := whole ∧ seq = m.expected ∧ 1 ≤ room ∧ room ≤ 32767
     let acked := mwBump b .received (s.onMw b fun m => { m with expected := (m.expected + 1) % 2 ^ 16, nakOut := false })
     let refused := fun (c cause : Nat) => ∃ t, exec (.mwDataFrame h true f) s = .next t ∧
       exec (.mwCloseFrame h f) s = .next t ∧ OnlyHp b s t ∧ (t.hp b).mw.nakOut = true ∧
       (t.hp b).mw.expected = m.expected ∧ tget (t.hp b).mw.counters c 0 = satInc 32 (tget m.counters c 0) ∧
       bit (t.hp b).cause cause = true
     s.mwUp b = true →
     (s.eff 0x0404 = 0 →
       (¬whole → refused 5 11) ∧ (whole → seq ≠ m.expected → refused 6 11) ∧
       (whole → seq = m.expected → room = 0 ∨ 32767 < room → refused 7 14)) ∧
     (taken → m.wrongPeer = true → s.linkRecord b ≠ none → exec (.mwDataFrame h true f) s = .next acked) ∧
     (taken → s.linkRecord b = none → exec (.mwDataFrame h true f) s = .next (mwBump b .unlisted acked)) ∧
     (∀ l o, taken → m.wrongPeer = false → s.linkRecord b = some l → s.ct.frame = some o →
       (kind = 2 → len = 4 → fld pay 0 8 < o → ∃ t, exec (.mwCloseFrame h f) s = .next t ∧ t.stickyBit 997 = true ∧
         OnlyHp b s t ∧ (t.hp b).mw.expected = (m.expected + 1) % 2 ^ 16) ∧
       (kind = 2 → len = 4 → o ≤ fld pay 0 8 → exec (.mwCloseFrame h f) s = .next (framesByMarker { acked with
         ct := { s.ct with closes := tmod s.ct.closes (fld pay 0 8) [] fun t => tput t b (bit (fld pay 8 4) 0) } })) ∧
       (kind = 1 → 1 ≤ len → len ≤ 512 →
         (orbitDistance o (bits head 35 32) < 8 → ∃ t, exec (.mwDataFrame h true f) s = .next t ∧ t.stickyBit 997 = true ∧
           OnlyHp b s t ∧ (t.hp b).mw.expected = (m.expected + 1) % 2 ^ 16 ∧
           tget (t.hp b).mw.counters 10 0 = satInc 32 (tget m.counters 10 0)) ∧
         exec (.mwDataFrame h true f) s = .next (takeData b l (bits head 35 32) (bits head 31 0) pay acked))) ∧
     exec (.mwDataFrame h false f) s = .next (mwMalformed b 1 s))

/-! ### Channeliser, memory, acts and DMA (05, 07, 11, 12) -/

/-- A block of stage A filters, transforms and requantises F samples and places each owned slice's sample, marked invalid
while its filter window is (05 R101 to R106, R119, 06 R128); a block of stage B consumes its C slice samples (05 R108).
Neither writes the HBM, and neither runs before its samples are there or its orbit, or frame, has closed. -/
def Obligations.ChanneliserBlocks : Prop :=
  ∀ (s : State) (path slice : Nat) (p : Programme) (r : ProgPath) (x : Nat),
    (∀ run, stageA s path = some (run, p, x) → (p.paths.find? fun r => r.path == path) = some r →
      (blockReady s p path x = true →
        let y := mixBlock p r (tget s.ing.paths path {}).granules x
        let old := (s.chan path).history p path x
        let hist := ((y.1, y.2.1) :: old).take p.pA
        ∃ t, exec (.slicerBlock path) s = .next t ∧ (t.chan path).nextA = some (x + p.f) ∧
          (t.chan path).runA = run ∧ (t.chan path).histA = hist ∧ t.hbm = s.hbm ∧ t.ct = s.ct ∧
          ∀ k, k < p.slices → p.owners.getD k 0 = p.device → tfind (t.fine path k).samples (x / p.f) =
            some (if windowValid p.pA hist then some (requant r.slReqShift 12 ((slicer p r hist).1.getD k (0, 0))).1
              else none)) ∧
      (blockReady s p path x = false → exec (.slicerBlock path) s = .next s)) ∧
    (∀ run ord sigma, stageB s path slice = some (run, p, x) → (p.paths.find? fun r => r.path == path) = some r →
      p.ordinal path = some ord → p.sigma slice = some sigma →
      (fineReady s p path slice x = true →
        ∃ t, exec (.fineFilterbankBlock path slice) s = .next t ∧ (t.fine path slice).next = some (x + 1) ∧
          (t.fine path slice).runB = run ∧ t.hbm = s.hbm ∧
          (∀ i, i < p.c → tfind (t.fine path slice).samples (x * p.c + i) = none) ∧
          ∀ q k, q * 256 + k ≠ path * 256 + slice → t.fine q k = s.fine q k) ∧
      (fineReady s p path slice x = false → exec (.fineFilterbankBlock path slice) s = .next s))

/-- CT_RUN_WRITE writes the oldest queued run, once the controller runs and the write port's regulator allows it (07 R170), to its ring
position, whose directory entry takes the block, and with the last run of a valid block its map bits; a position that still holds
another block makes it an overrun, which writes and draws nothing (07 R159, R161, R163). CT_READ_BLOCK likewise reads the next block
of the first schedule into the Carousel's free root (07 R164; 08 R187). What each access does to the queues and the in-order mode of
its bank is `State.access`, and the accesses that a row says served leave their queues first (07 R171, R172; log entry 133).
CAROUSEL_BLOCK_DELIVER: once every engine that subscribes to the block's path group has room, each takes it into its feed
ring and the root is free; while one has none, the block waits and no ring changes; the cycles it has waited count at the engines
that held it (08 R187 to R189, R206). -/
def Obligations.CornerTurnAndCarousel : Prop :=
  (∀ (s : State) (dt : Nat) (served : List Nat),
     let a := (s.advance dt).serves served
     (∀ r rest p reg, s.ct.wbuf = r :: rest → a.eligible 0 r.bytes.length = true → s.progGen r.gen = some p →
       p.region 1 = some reg →
       let pos := r.block % reg.depth
       let e := s.ringEntry reg.base pos
       let key := blockKey r.block r.path (r.kappa / p.c)
       let n := tget (tget s.ct.accepted p.generation []) key 0 + 1
       let at' := runAddress reg.base p.pathCount reg.depth p.z r.path r.kappa r.block r.sub
       let written := (a.access 0 true [(at', r.bytes.length)]).hbmWrite at' r.bytes
       let whole := n = 4 * p.c ∧ tget (tget s.ct.valid p.generation []) key false = true
       (e.state = 0 ∨ e.block = r.block → ∃ t, exec (.ctRunWrite dt served) s = .next t ∧ t.ct.wbuf = rest ∧
         (t.ringEntry reg.base pos).block = r.block ∧ (t.ringEntry reg.base pos).state ≠ 0 ∧
         t.ct.overruns = s.ct.overruns ∧ t = { a with ct := t.ct, hbm := t.hbm } ∧
         (¬whole → t.hbm = written.hbm) ∧
         (∀ m, whole → p.region 2 = some m →
           let row := mapAddress m.base p.pathCount p.owned.length p.c pos r.path (r.kappa / p.c)
           t.hbm = ((written.access 0 true [(row, rowBytes p.c)]).hbmWrite row (setBits p.c)).hbm)) ∧
       (e.state ≠ 0 → e.block ≠ r.block → ∃ t, exec (.ctRunWrite dt served) s = .next t ∧ t.hbm = a.hbm ∧
         t.stickyBit 641 = true ∧ t.ct = { s.ct with wbuf := rest, overruns := satInc 32 s.ct.overruns })) ∧
     (s.ct.wbuf = [] → exec (.ctRunWrite dt served) s = .next a) ∧
     (∀ r rest, s.ct.wbuf = r :: rest → a.eligible 0 r.bytes.length = false → exec (.ctRunWrite dt served) s = .next a) ∧
     (a.granted 1 a.nextRead = false → exec (.ctReadBlock dt served) s = .next a) ∧
     (∀ r rest p id, s.coreLive = true → s.car.root = none → s.car.runs = r :: rest → s.progGen r.gen = some p →
       a.granted 1 a.nextRead = true → r.block = some id → ∃ t, exec (.ctReadBlock dt served) s = .next t ∧
         t.car.root = some (readBlock a p id) ∧
         t.car.runs = (match r.next p with | some q => q :: rest | none => rest) ∧ t.engines = s.engines) ∧
     (∀ b, s.car.root = some b → exec (.ctReadBlock dt served) s = .next a)) ∧
  (∀ (s : State) (b : CarouselBlock) (bad : List (Nat × Nat × Nat)), s.coreLive = true → s.car.root = some b →
     allDiffer (s.engines.map (·.1)) = true →
     let fed := subscribers s b.id.group
     let room := ∀ x ∈ fed, ringRoom (s.eng x.1) x.2 b.lines.length = true
     (room → ∃ t, exec (.carouselBlockDeliver bad) s = .next t ∧ t.car.root = none ∧ t.car.heldSince = none ∧
       t.car.heldBy = [] ∧
       (∀ x ∈ fed, (s.eng x.1).len x.2 ≠ 0 →
         (tget (t.eng x.1).rings x.2 {}).fill = (tget (s.eng x.1).rings x.2 {}).fill + b.lines.length) ∧
       (∀ x ∈ fed, (s.eng x.1).len x.2 = 0 → (t.eng x.1).rings = (s.eng x.1).rings) ∧
       (∀ e, (∀ k, (e, k) ∉ fed) → e ∉ s.car.heldBy.map (·.1) → t.eng e = s.eng e) ∧ t.hbm = s.hbm) ∧
     (¬room → ∃ t, exec (.carouselBlockDeliver bad) s = .next t ∧ t.car.root = some b ∧ t.car.heldSince = some s.cycle ∧
       (∀ x ∈ fed, ringRoom (s.eng x.1) x.2 b.lines.length = false → x.1 ∈ t.car.heldBy.map (·.1)) ∧
       (∀ e c, s.car.heldSince = some c → allDiffer (s.car.heldBy.map (·.1)) = true → e ∈ s.car.heldBy.map (·.1) →
         tget (t.eng e).counters 3 0 = satAdd 32 (tget (s.eng e).counters 3 0) (s.cycle - c)) ∧
       ∀ e, (t.eng e).rings = (s.eng e).rings ∧ (t.eng e).lines = (s.eng e).lines))

/-- Errors of the HBM (07 R173 to R179): an uncorrectable error freezes the controller and takes the snapshot, a corrected one
is counted and reported, the scrub goes through the granules in order, each bank's refresh runs while the controller runs or is
frozen, at twice the rate above 85 degrees, and a stack's temperature at HBM_TEMP_WARN_C raises its event. No stored byte changes.
The capture (07 R166, R167): an edge on CAPTURE_TRIG triggers an ARMED capture and is counted elsewhere; the capture writer
stores its oldest run once its regulator takes it, drops it with EV_CAP_DROP when that has not been within 2 µs (07 R170), and holds
it during shedding or a freeze. -/
def Obligations.HbmErrorsAndCapture : Prop :=
  (∀ (s : State) (kind a port syn found b stack pc bank : Nat) (held : List HeldRequest) (c : Int),
     let kept := fun (t : State) => t.hbm.mem = s.hbm.mem ∧ t.hbm.undef = s.hbm.undef
     let only := fun (t : State) => t = { s with hbm := t.hbm, ev := t.ev } ∧ kept t
     let frozen := fun (t : State) (kind a : Nat) =>
       let l := hbmPlace s.fuses.variant a
       (s.prg.loading = none → only t) ∧ t.prg.loading = none ∧ t.hbm.state = 1 ∧ t.hbm.kind = kind ∧ t.hbm.address = a / 64 * 64 ∧ t.hbm.stack = l.stack ∧ t.hbm.pc = l.pc ∧
         t.hbm.bank = l.bank ∧ t.hbm.row = l.row ∧ t.hbm.column = l.column ∧ t.hbm.stamp = s.stamp ∧
         t.stickyBit 640 = true ∧ t.stickyBit (656 + 8 * l.stack + (if kind = 3 then 2 else 1)) = true
     let corrected := fun (t : State) (a : Nat) =>
       let h := (hbmPlace s.fuses.variant a).stack
       tget t.hbm.corrected h 0 = satInc 32 (tget s.hbm.corrected h 0) ∧ t.stickyBit (656 + 8 * h) = true ∧ t.hbm.state = 0
     (s.hbm.state = 0 → 1 ≤ kind → kind ≤ 3 → a < hbmCapacity s.fuses.variant →
       ∃ t, exec (.hbmUncorrectableError kind a port syn held) s = .next t ∧ kept t ∧ frozen t kind a ∧
         t.hbm.port = port ∧ t.hbm.held = (heldSort held).take 4096 ∧ t.hbm.syndrome = (if kind = 3 then 0 else syn % 256)) ∧
     (s.hbm.state ≠ 0 → exec (.hbmUncorrectableError kind a port syn held) s = .next s ∧
       exec (.hbmCorrectedError a b) s = .next s ∧ exec (.hbmScrub found b held) s = .next s ∧
       exec (.hbmRetime stack) s = .next s) ∧
     (s.hbm.state = 0 → a < hbmCapacity s.fuses.variant → ∃ t, exec (.hbmCorrectedError a b) s = .next t ∧ only t ∧
       corrected t a) ∧
     (s.grantedLow 6 64 = true → s.eff 0x0700 = 1 → ∃ t, exec (.hbmScrub found b held) s = .next t ∧ kept t ∧
       let at' := s.hbm.scrubNext
       let l := hbmPlace s.fuses.variant at'
       let read := (s.access 6 false [(at', 64)]).hbm
       t.hbm.scrubNext = (at' + 64) % hbmCapacity s.fuses.variant ∧
       (found = 0 → only t ∧ t.ev = s.ev ∧ t.hbm = { read with scrubNext := t.hbm.scrubNext }) ∧
       (found = 1 → only t ∧ corrected t at' ∧ thas t.hbm.ordered l.bankKey = true ∧ t.hbm.accepted = read.accepted + 1 ∧
         tget t.hbm.inOrder l.stack 0 =
           (if thas read.ordered l.bankKey then tget read.inOrder l.stack 0 else satInc 32 (tget read.inOrder l.stack 0))) ∧
       (found = 2 → frozen t 1 at' ∧ t.hbm.held = (heldSort held).take 4096) ∧
       (found = 3 → frozen t 2 at' ∧ t.hbm.held = (heldSort held).take 4096)) ∧
     (s.grantedLow 6 64 = false ∨ s.eff 0x0700 = 0 → exec (.hbmScrub found b held) s = .next s) ∧
     (s.hbm.state ≤ 1 → stack < stacksOf s.fuses.variant → pc < 32 → bank < 48 →
       let key := (32 * stack + pc) * 48 + bank
       let hot := 85 < tget s.hbm.temps stack 0
       exec (.hbmRefresh stack pc bank) s = .next { s with hbm := { s.hbm with
         refreshes := tput s.hbm.refreshes key (tget s.hbm.refreshes key 0 + 1)
         refreshDue := tput s.hbm.refreshDue key
           (s.cycle + if hot then Config.refreshInterval / 2 else Config.refreshInterval) } }) ∧
     (1 < s.hbm.state → exec (.hbmRefresh stack pc bank) s = .next s) ∧
     (s.hbm.state = 0 → stack < stacksOf s.fuses.variant → exec (.hbmRetime stack) s =
       .next { s with hbm := { s.hbm with retimes := tput s.hbm.retimes stack (tget s.hbm.retimes stack 0 + 1) } }) ∧
     (stack < stacksOf s.fuses.variant → s.pwr.hbmTrained = true → ∃ t, exec (.evHbmTempWarn stack c) s = .next t ∧ only t ∧
       tfind t.hbm.temps stack = some c ∧ ((s.eff 0x0702 : Int) ≤ c → t.stickyBit (656 + 8 * stack + 3) = true) ∧
       (c < (s.eff 0x0702 : Int) → t.ev = s.ev))) ∧
  (∀ (s : State) (dt : Nat),
     let a := s.advance dt
     (s.ctlLive = true → s.cap.state = 1 → ∃ t, exec .captureTrigEdge s = .next t ∧ (t.cap.state = 2 ∨ t.cap.state = 3) ∧
       t.cap.trigger = s.ch.begun.getD 0 ∧ t.cap.stamp = s.stamp ∧ t.cap.wbuf = s.cap.wbuf ∧
       t = { s with cap := t.cap, ev := t.ev }) ∧
     (s.ctlLive = false → exec .captureTrigEdge s = .next s) ∧
     (s.ctlLive = true → s.cap.state ≠ 1 → exec .captureTrigEdge s =
       .next { s with cap := { s.cap with ignored := satInc 32 s.cap.ignored } }) ∧
     (captureHeld s = true ∨ s.hbm.state ≠ 0 → exec (.captureRunWrite dt) s = .next a) ∧
     (∀ r rest p b ring, captureHeld s = false → s.hbm.state = 0 → s.cap.wbuf = r :: rest → s.progGen r.gen = some p →
       tfind s.ch.begunTerms (r.block * 256 / p.n) = some b → p.region 5 = some ring →
       let x := { a with cap := { s.cap with wbuf := rest } }
       let n := r.block * 256 / p.n
       (a.cycle ≤ r.since + 2000 → a.grantedLow 5 r.bytes.length = true →
         exec (.captureRunWrite dt) s = .next (captureCount n (storeCapture p b ring (p.region 6) r x))) ∧
       (a.cycle ≤ r.since + 2000 → a.grantedLow 5 r.bytes.length = false → exec (.captureRunWrite dt) s = .next a) ∧
       (r.since + 2000 < a.cycle → ∃ t, exec (.captureRunWrite dt) s = .next t ∧ t.cap.wbuf = rest ∧
         t.cap.drops = satInc 32 s.cap.drops ∧ t.stickyBit 645 = true ∧ t.hbm = s.hbm)))

/-- The swap and the end of a programme (11 R262, R270, R272, R275): the ARMED slot takes effect at its swap orbit and the old
one retires; a halt orbit retires the slot in effect; a retired slot becomes EMPTY once its window has ended and its acts, chains
and replays are done; the reader begins the next frame once it has closed and been delivered, and until then the stall is
counted; after a halt at an orbit the frames of the tail window follow one another (log entry 138). -/
def Obligations.ProgrammeSwapAndActs : Prop :=
  ∀ (s : State), s.coreLive = true →
    (∀ i p, s.slotIn .armed = some i → (s.slot i).prog = some p →
      (∀ j, s.slotIn .inEffect = some j → (∀ n, (s.slot j).haltOrbit = some n → (s.slot i).swapOrbit ≤ n) →
        s.mayReach (s.slot i).swapOrbit = true →
        ∃ t, exec .programmeSwap s = .next t ∧ (t.slot i).state = .inEffect ∧ (t.slot j).state = .retiring ∧
          (t.slot i).prog = some p ∧ (t.slot j).prog = (s.slot j).prog ∧ t.stickyBit 1004 = true ∧
          ∀ k, k ≠ i → k ≠ j → t.slot k = s.slot k) ∧
      (∀ j, s.slotIn .inEffect = some j → (∀ n, (s.slot j).haltOrbit = some n → (s.slot i).swapOrbit ≤ n) →
        s.mayReach (s.slot i).swapOrbit = false →
        exec .programmeSwap s = .next s) ∧
      (s.slotIn .inEffect = none → ∃ t, exec .programmeSwap s = .next t ∧ (t.slot i).state = .inEffect ∧
        (t.slot i).prog = some p ∧ t.orb.oldest = some (s.slot i).swapOrbit ∧ t.stickyBit 1004 = true ∧
        ∀ k, k ≠ i → t.slot k = s.slot k)) ∧
    (∀ j n, s.slotIn .inEffect = some j → (s.slot j).haltOrbit = some n → s.mayReach n = true →
      (∀ i, s.slotIn .armed = some i → n < (s.slot i).swapOrbit) →
      ∃ t, exec .programmeSwap s = .next t ∧ t.slot j = { s.slot j with
          state := .retiring, endOrbit := some n, tailAt := n
          tailEnd := match (s.slot j).prog with | some q => tailEndOf q n | none => n } ∧
        t.stickyBit 1006 = true ∧ (∀ k, k ≠ j → t.slot k = s.slot k) ∧ t.engines = s.engines) ∧
    (let gone := fun (j : Nat) =>
       j < 3 ∧ (s.slot j).state = .retiring ∧ windowEnded s j = true ∧ generationDone s (s.slot j).generation = true
     (∀ k, k < 3 → (s.slot k).state = .retiring → (s.slot k).haltDump = false) →
      (∀ j, gone j → (∀ k, k < j → ¬gone k) → ∃ t, exec .programmeRetired s = .next t ∧ t.slot j = {} ∧
        t.stickyBit 1005 = true ∧ (∀ k, k ≠ j → t.slot k = s.slot k) ∧ t.hbm = s.hbm) ∧
      ((∀ j, ¬gone j) → exec .programmeRetired s = .next s)) ∧
    (s.hbm.state = 0 → s.car.runs = [] →
      (∀ n i p, haltTail s = none → s.nextFrame = some n → s.slotAt n = some i → (s.slot i).prog = some p →
        (frameReadable s p n = true → ∃ t, exec .actBoundary s = .next t ∧ t.prg.frame = some n) ∧
        (frameReadable s p n = false → exec .actBoundary s =
          .next { s with ct := { s.ct with stalls := satInc 32 s.ct.stalls } })) ∧
      (∀ j, haltTail s = some j → ∃ t, exec .actBoundary s = .next t ∧ (t.slot j).tailAt = (s.slot j).tailAt + 1 ∧
        t.prg.frame = s.prg.frame ∧
        ∀ k, k ≠ j → (t.slot k).state = (s.slot k).state ∧ (t.slot k).prog = (s.slot k).prog))

/-- DMA_BURST_START: among the channels that are ready, one of the lowest PRIO is granted (12 R287); a copy out of the HBM reads
up to 2,048 bytes of it through DMA_RD into the burst buffer, and no other channel changes (12 R284, Table 12.3; 07 R170). Channels 60
to 63 take part like the others; a loop of no-op markers goes on first (12 R285).
DMA_BURST_COMPLETE: the oldest burst in flight of a copy into the HBM is written at its place and nowhere else; with the
descriptor's last byte a chain's END puts its channel into IDLE_AT_END with its cause bits (12 R284, R286, R298). A write into the
HBM waits while the controller is frozen or its port's regulator or a port ahead of it holds it back (07 R170, R177); the load that
channel 62 carries ends with BUSY where its port has no share at all (log entry 142). -/
def Obligations.DmaBursts : Prop :=
  (∀ (s : State) (dt : Nat) (room : List Nat) (withdrawn : Bool) (bad : Option Nat) (served : List Nat),
     let s1 := setLevels room ((s.advance dt).serves served)
     let s2 := (s1.dma.channels.map (·.1)).foldl (fun u c => resumeFetch c u) s1
     let ready := (List.range 64).filter (burstReady s2)
     let prio := fun c => dPrio ((s2.dch c).desc.getD [])
     (s1.dmaLive = true → ready ≠ [] → (∀ c ∈ ready, burstWaits s2 c = none) →
       ∃ c ∈ ready, (∀ k ∈ ready, prio c ≤ prio k) ∧
         exec (.dmaBurstStart dt room withdrawn bad served) s = .next (startBurst c withdrawn bad s2)) ∧
     (∀ c d, s1.dmaLive = true → ready = [c] → burstWaits s2 c = none → (s2.dch c).desc = some d → dMode d = 0 →
       wSpace (dSrc d) = 0 → (s2.dch c).start = none → s2.hbm.bad = [] →
       let x := s2.dch c
       let n := min 2048 (dLength d - x.readBytes)
       let at' := hbmAddress d 0 (dSrc d) + x.readBytes
       ∃ t, exec (.dmaBurstStart dt room withdrawn bad served) s = .next t ∧
         t.hbm = (s2.access 3 false [(at', n)]).hbm ∧ (t.dch c).readBytes = x.readBytes + n ∧
         (t.dch c).desc = some d ∧ (t.dch c).state = x.state ∧
         (t.dch c).inFlight = x.inFlight ++
           [{ offset := x.readBytes, length := n, damaged := false, data := s2.hbmRead at' n }] ∧
         t.dma.order = s2.dma.order ++ [c] ∧ tfind t.dma.granted (dPrio d) = some c ∧
         ∀ k, k ≠ c → t.dch k = s2.dch k) ∧
     (s1.dmaLive = true → ready = [] → exec (.dmaBurstStart dt room withdrawn bad served) s = .next s2) ∧
     (s1.dmaLive = false → exec (.dmaBurstStart dt room withdrawn bad served) s = .next s1)) ∧
  (∀ (s : State) (dt : Nat), s.dmaLive = true →
     let s1 := s.advance dt
     (∀ c rest d b more, s.dma.order = c :: rest → s1.granted 2 b.length = true → (s.dch c).desc = some d →
       (s.dch c).inFlight = b :: more → dMode d = 0 → wSpace (dDst d) = 0 → memWf 0 s.hbm.mem = true →
       let x := s.dch c
       let a := hbmAddress d x.frame (dDst d) + b.offset
       ∃ t, exec (.dmaBurstComplete dt) s = .next t ∧ t.hbmRead a b.data.length = b.data ∧
         (∀ i, i < a ∨ a + b.data.length ≤ i → t.hbmGet i = s.hbmGet i) ∧ t.dma.order = rest ∧
         (∀ k, k ≠ c → t.dch k = s.dch k) ∧
         (x.written + b.length < dLength d → x.cut = false → (t.dch c).desc = some d ∧ (t.dch c).written = x.written + b.length ∧
           (t.dch c).inFlight = more ∧ (t.dch c).state = x.state ∧ (t.dch c).cause = x.cause ∧ t.ev = s.ev) ∧
         (dLength d ≤ x.written + b.length → dEnd d = true → x.hbmBad = false → x.waiting = [] →
           (t.dch c).desc = none ∧ (t.dch c).state = 5 ∧ (t.dch c).endLatched = true ∧ bit (t.dch c).cause 2 = true ∧
           bit (t.dch c).cause 0 = (bit x.cause 0 || dEvent d))) ∧
     (s.dma.order = [] → exec (.dmaBurstComplete dt) s = .next s1) ∧
     (∀ c rest d b more, s.dma.order = c :: rest → (s.dch c).desc = some d → (s.dch c).inFlight = b :: more →
       writesHbm d = true → s1.granted 2 (burstWrites s1 c (s1.dch c) d b) = false →
       (c ≠ 62 ∨ s1.portShare 2 ≠ some 0 → exec (.dmaBurstComplete dt) s = .next s1) ∧
       (c = 62 → s1.portShare 2 = some 0 → exec (.dmaBurstComplete dt) s = .next (loadStops .busy s1))))

/-- The DMA registers: LINK_NEW links the chain with LINK_EXPECT as DMA_LINK does, and on a programme-owned or internal channel
only sets LINK_REJECTED (12 R297); a write of CAUSE clears the bits written as 1 (12 R298); a wait longer than DMA_STALL_WARN_US on
BUSY or a token sets SLOT_WAIT_LONG (12 R288). -/
def Obligations.DmaRegisters : Prop :=
  ∀ (s : State) (c a mask dt : Nat), c < 64 →
    let x := s.dch c
    let e := x.linkExpect
    let rejected := fun (t : State) => OnlyDch c s t ∧ bit (t.dch c).cause 7 = true ∧
      t.dch c = { x with cause := (t.dch c).cause }
    (s.ctlLive = true →
      (60 < c ∨ s.progOwned c = true → ∃ t, exec (.linkNew c a) s = .next t ∧ rejected t) ∧
      (c ≤ 60 → s.progOwned c = false →
        (4095 < e ∨ 4095 < a → ∃ t, exec (.linkNew c a) s = .next t ∧ rejected t) ∧
        (e ≤ 4095 → a ≤ 4095 →
          (∀ d, x.desc = some d → x.current = e → ∃ t, exec (.linkNew c a) s = .next t ∧
            t.dch c = { x with desc := some (linkTo d a) } ∧ (∀ k, k ≠ c → t.dch k = s.dch k) ∧ t.ev = s.ev ∧ t.hbm = s.hbm) ∧
          (x.desc = none → x.state = 5 → x.current = e → exec (.linkNew c a) s = .next (startHost c a s)) ∧
          (x.desc = none ∨ x.current ≠ e → x.state ≠ 5 ∨ x.current ≠ e →
            (dEnd (s.hostDesc e) = true → x.state ≠ 6 ∨ x.current ≠ e →
              exec (.linkNew c a) s = .next (writeDescs e [linkTo (s.hostDesc e) a] (tget s.dma.inline e []) s)) ∧
            (dEnd (s.hostDesc e) = false ∨ x.state = 6 ∧ x.current = e →
              ∃ t, exec (.linkNew c a) s = .next t ∧ rejected t)))) ∧
      (∃ t, exec (.dmaCauseW1c c mask) s = .next t ∧ t.ev = s.ev ∧ OnlyDch c s t ∧ t.dch c = { x with cause := (t.dch c).cause } ∧
        ∀ b, bit (t.dch c).cause b = (bit x.cause b && !bit mask b))) ∧
    (s.ctlLive = false → exec (.linkNew c a) s = .next s ∧ exec (.dmaCauseW1c c mask) s = .next s) ∧
    (∀ t0, x.waitSince = some t0 → t0 + s.eff 0x0A00 * 1000 < s.cycle + dt → x.waitLong = false → x.waitKind < 2 →
      ∃ t, exec (.slotWaitLong c dt) s = .next t ∧ OnlyDch c (s.advance dt) t ∧ bit (t.dch c).cause 6 = true ∧
        t.dch c = { x with waitLong := true, cause := (t.dch c).cause } ∧
        (bit x.cause 6 = false → t.stickyBit (768 + c) = true)) ∧
    (x.waitSince = none ∨ x.waitLong = true ∨ 2 ≤ x.waitKind ∨
      (∃ t0, x.waitSince = some t0 ∧ s.cycle + dt ≤ t0 + s.eff 0x0A00 * 1000) → exec (.slotWaitLong c dt) s = .next (s.advance dt))

/-! ### Events and the control bus (15, 16) -/

/-- A W1C write of STICKY word w clears the bits written as 1 among events 32 w to 32 w + 31 and no other (16 R366, Table 16.6);
bit 0 of COUNTER_CLEAR clears every occurrence counter (16 R371).
EVENT_PACKET_SEND: after the hold-off, or with 64 records queued, the queued records leave in one packet: from the Management Port
at once, from a half-port through channel 63, whose burst starts at once where the DMA grants it now and which takes no second packet
meanwhile; where its port cannot send, they are dropped and counted; SEQ rises by one each time (16 R372 to R374; 12 R287, R292). -/
def Obligations.EventTree : Prop :=
  (∀ (s : State) (w value : Nat),
     (∃ t, exec (.stickyW1c w value) s = .next t ∧ (∀ e, e < 1024 → eventPresent s.fuses.variant e = true →
         t.stickyBit e = (s.stickyBit e && !(decide (e / 32 = w) && bit value (31 - e % 32)))) ∧
       t.ev = { s.ev with sticky := t.ev.sticky } ∧ t.fuses = s.fuses ∧ t.cmd = s.cmd ∧ t.hbm = s.hbm ∧ t.bus = s.bus) ∧
     (∃ t, exec (.counterClear value) s = .next t ∧ t = { s with ev := { s.ev with occurrences := t.ev.occurrences } } ∧
       t.ev.occurrences = if bit value 0 then [] else s.ev.occurrences)) ∧
  (∀ (s : State) (dt : Nat), s.boot.porstLow = false → s.pwr.state ≠ .sleep →
     let s1 := s.advance dt
     let n := s.ev.queue.length
     let due := s.ev.queue ≠ [] ∧ (64 ≤ n ∨ s.ev.holdCycle + 1000 * s.eff 0x0D05 ≤ s.cycle + dt)
     let taken := fun (t : State) => t.ev.queue = [] ∧ t.ev.lost = false ∧
       t.ev.packetSeq = (s.ev.packetSeq + 1) % 2 ^ 32 ∧ t.ev.sticky = s.ev.sticky ∧ t.ev.faults = s.ev.faults
     let left := fun (t : State) (k : Nat) => t.ev.packetsSent = satInc 32 s.ev.packetsSent ∧
       t.ev.packetsDropped = s.ev.packetsDropped ∧ t.ev.recordsSent = satAdd 32 s.ev.recordsSent k
     let free := s.dmaLive = true ∧ ((s.dch 63).state = 0 ∨ (s.dch 63).state = 5)
     (due → eventPort s = some 255 → ∃ t, exec (.eventPacketSend dt) s = .next t ∧ taken t ∧ left t n ∧ t.dma = s.dma) ∧
     (due → ∀ p, eventPort s = some p → p ≠ 255 →
       let u := startEventPacket p (eventPacket s1) (takeRecords s1)
       (free → ∃ t, exec (.eventPacketSend dt) s = .next t ∧ taken t ∧
         (grantChannel u u.startable = some 63 → left t (n % 256) ∧ t.dma.order = s.dma.order ++ [63]) ∧
         (grantChannel u u.startable ≠ some 63 → t = u ∧ t.ev.packetsSent = s.ev.packetsSent ∧ (t.dch 63).state = 1)) ∧
       (¬free → exec (.eventPacketSend dt) s = .next s1)) ∧
     (due → eventPort s = none → ∃ t, exec (.eventPacketSend dt) s = .next t ∧ taken t ∧ t = { s1 with ev := t.ev } ∧
       t.ev.packetsSent = s.ev.packetsSent ∧ t.ev.packetsDropped = satInc 32 s.ev.packetsDropped) ∧
     (¬due → exec (.eventPacketSend dt) s = .next s1))

/-- A fault that finds no empty slot of the fault record is not recorded: it is counted in the overflow counter and
EV_FAULT_RECORD_FULL is raised; no entry is overwritten (16 R377). At most an entry's repeat count changes, by the events
of the overflow where the host routes those into the record. -/
def Obligations.FullFaultRecord : Prop :=
  ∀ (s : State) (e : Nat) (f : FaultSpec), eventPresent s.fuses.variant e = true → f.always = true →
    (∀ i, i < 64 → (tfind s.ev.faults i).isSome = true) → heldFault s.ev.faults e f.loc = none →
    let t := raiseFault e f s
    satInc 32 s.ev.overflows ≤ t.ev.overflows ∧ t.stickyBit 964 = true ∧ t.ev.nextFsn = s.ev.nextFsn ∧
    (∀ i x, tfind s.ev.faults i = some x → ∃ n, tfind t.ev.faults i = some { x with repeats := n }) ∧
    ((s.route 964).getLsbD 3 = false → (s.route 965).getLsbD 3 = false →
      t.ev.overflows = satInc 32 s.ev.overflows ∧ t.ev.faults = s.ev.faults)

/-- A read or write of control SRAM by a master with a path to it, and no transaction in progress there: the words of the beats that
pass, at their addresses and nowhere else; one in progress makes the request wait at the target's arbiter; a transaction that reaches
nothing is a decode error and reads zeros (15 R351, R354, R357, R358).
EV_BUS_TIMEOUT completes the master's transaction as one that reaches nothing and closes its target until PORST_N, with
its fault (15, under R360); a target in a domain that is off answers no beat (01 R17; log entry 127); SLICE_MODE_SWITCH puts the
slices where the conditions of 15 R361 want them, once no transaction is outstanding. What a request that waits does then is
`busResume` (15 R358). -/
def Obligations.BusTransactions : Prop :=
  (∀ (s : State) (m a : Nat) (beats : List (Nat × Nat)) (stops : List Nat), masterLive s m = true →
     s.bus.requests = [] → tfind s.bus.outstanding m = none → busFormOk a beats.length = true → memWf 0 s.bus.sram = true →
     let n := beats.length
     (∀ o, busHolder .sram s = false →
       (busDest s m false a = .served .sram o → ∃ t, exec (.busTransaction m false a beats n stops) s = .next t ∧
         tget t.bus.readData m [] = (List.range n).map (fun i => memWord 0 s.bus.sram (o + 4 * i)) ∧
         tfind t.bus.outstanding m = none ∧ t.bus.sram = s.bus.sram ∧ t = { s with bus := t.bus }) ∧
       (busDest s m true a = .served .sram o → (∀ x ∈ beats, x.1 = 15) →
         ∃ t, exec (.busTransaction m true a beats n stops) s = .next t ∧
           (∀ i, i < n → memWord 0 t.bus.sram (o + 4 * i) = (beats.getD i (0, 0)).2 % 2 ^ 32) ∧
           (∀ b, b < o ∨ o + 4 * n ≤ b → memGet 0 t.bus.sram b = memGet 0 s.bus.sram b) ∧
           tfind t.bus.outstanding m = none ∧ t = { s with bus := t.bus }) ∧
       (∀ d, d < n → busDest s m false a = .served .sram o →
         ∃ t x, exec (.busTransaction m false a beats d stops) s = .next t ∧ tfind t.bus.outstanding m = some x ∧
           x.done = d ∧ x.beats = n ∧ x.offset = o ∧ x.target = .sram ∧ x.since = s.cycle ∧ t = { s with bus := t.bus })) ∧
     (∀ w x o d, busDest s m w a = .served x o → busHolder x s = true →
       exec (.busTransaction m w a beats d stops) s = .next { s with bus := { s.bus with
         requests := [(m, { write := w, addr := a, data := beats, stops := stops })] } }) ∧
     (busDest s m false a = .nowhere → ∃ t, exec (.busTransaction m false a beats n stops) s = .next t ∧
       t.stickyBit 913 = true ∧ tget t.bus.readData m [] = List.replicate n 0 ∧ tfind t.bus.outstanding m = none ∧
       t = { s with ev := t.ev, bus := t.bus }) ∧
     (busDest s m true a = .denied → ∃ t, exec (.busTransaction m true a beats n stops) s = .next t ∧
       t.stickyBit 914 = true ∧ t = { s with ev := t.ev, bus := { s.bus with counters := t.bus.counters } })) ∧
  (∀ (s : State) (m : Nat),
     (∀ x, s.bus.requests = [] → tfind s.bus.outstanding m = some x → ∃ t, exec (.evBusTimeout m) s = .next t ∧
       tfind t.bus.outstanding m = none ∧ (∀ k, k ≠ m → tfind t.bus.outstanding k = tfind s.bus.outstanding k) ∧
       x.target ∈ t.bus.closed ∧ (∀ y ∈ s.bus.closed, y ∈ t.bus.closed) ∧ t.stickyBit 915 = true ∧
       (x.write = false → tget t.bus.readData m [] = tget s.bus.readData m [] ++ List.replicate (x.beats - x.done) 0) ∧
       t.bus.sram = s.bus.sram ∧ t.bus.retained = s.bus.retained ∧ t = { s with ev := t.ev, bus := t.bus }) ∧
     (tfind s.bus.outstanding m = none → exec (.evBusTimeout m) s = .next s) ∧
     (s.ctlLive = true → ∃ t, exec .sliceModeSwitch s = .next t ∧
       (t.bus.outstanding = [] → t.bus.slices = slicesWanted t) ∧ (s.bus.outstanding = [] → s.bus.requests = [] → t = { s with bus := { s.bus with slices := slicesWanted s } })) ∧
     (s.ctlLive = false → exec .sliceModeSwitch s = .next s) ∧
     (∀ x w a beats d stops, s.bus.requests = [] → tfind s.bus.outstanding m = some x → s.answers x.target = false →
       exec (.busTransaction m w a beats d stops) s = .next s))

/-- The rows of the bus whose commands complete (15 R351, R357, R361, and under R360). BUS_TRANSACTION: with a live master whose port is free,
a well-formed burst, no request that waits, a path to a memory and no transaction in progress there, every beat passes and the
transaction is complete and counted. EV_BUS_TIMEOUT: an outstanding transaction ends. SLICE_MODE_SWITCH: while the control domain runs and
nothing is outstanding or waits, the slices go where the conditions of R361 want them. -/
def Obligations.BusRowsComplete : Prop :=
  ∀ (s : State) (m : Nat), s.bus.requests = [] →
    (∀ w a beats stops x o, masterLive s m = true → tfind s.bus.outstanding m = none → busFormOk a beats.length = true →
      busDest s m w a = .served x o → x = .rom ∨ x = .localA ∨ x = .localB ∨ x = .sram → busHolder x s = false →
      ∃ t, exec (.busTransaction m w a beats beats.length stops) s = .next t ∧ tfind t.bus.outstanding m = none ∧
        tget t.bus.counters (8 * m) 0 = satInc 32 (tget s.bus.counters (8 * m) 0) ∧
        (w = false → (tget t.bus.readData m []).length = beats.length) ∧ t = { s with bus := t.bus }) ∧
    (∀ x, tfind s.bus.outstanding m = some x → ∃ t, exec (.evBusTimeout m) s = .next t ∧ tfind t.bus.outstanding m = none ∧
      t.stickyBit 915 = true ∧ x.target ∈ t.bus.closed ∧ t = { s with ev := t.ev, bus := t.bus }) ∧
    (s.ctlLive = true → s.bus.outstanding = [] →
      exec .sliceModeSwitch s = .next { s with bus := { s.bus with slices := slicesWanted s } })

/-- Register writes through the bus: REGISTER_WRITE to control SRAM puts its word there and nothing else; only the debug access
port and the boot sequencer change SYSCTL_CONFIG, a unit's write of it being denied (15 R355, R356); a write of a master's clear
register clears its counters and no other master's (15 R363). -/
def Obligations.BusRegisterWrites : Prop :=
  ∀ (s : State) (m a v k : Nat), masterLive s m = true → s.bus.outstanding = [] → s.bus.requests = [] → s.bus.closed = [] →
    let denied := fun (t : State) => t.stickyBit 914 = true ∧ t = { s with ev := t.ev, bus := t.bus } ∧
      t.bus.remapA = s.bus.remapA ∧ t.bus.remapB = s.bus.remapB ∧ t.bus.forceSlices = s.bus.forceSlices ∧
      t.bus.sram = s.bus.sram
    (∀ o, a % 4 = 0 → a < 2 ^ 32 → busDest s m true a = .served .sram o → memWf 0 s.bus.sram = true →
      ∃ t, exec (.registerWrite m a v) s = .next t ∧ memWord 0 t.bus.sram o = v % 2 ^ 32 ∧
        (∀ b, b < o ∨ o + 4 ≤ b → memGet 0 t.bus.sram b = memGet 0 s.bus.sram b) ∧ t = { s with bus := t.bus } ∧
        t.bus.retained = s.bus.retained ∧ t.bus.localA = s.bus.localA ∧ t.bus.localB = s.bus.localB) ∧
    (m = 4 ∨ m = 5 → ∃ t, exec (.sysctlRemapWrite m v) s = .next t ∧ t.bus.remapA = bit v 0 ∧ t.bus.remapB = bit v 1 ∧
      t.bus.forceSlices = bit v 3 ∧ t.bus.slices = s.bus.slices ∧ t.bus.sram = s.bus.sram ∧ t = { s with bus := t.bus }) ∧
    (m ≤ 1 → ∃ t, exec (.sysctlRemapWrite m v) s = .next t ∧ denied t) ∧
    (k ≤ 5 → masterPresent s.fuses.variant k = true → m = 4 ∨ m = 5 ∨ (s.cu.held = true ∧ s.cu.holder = m ∧ m ≤ 1) →
      ∃ t, exec (.busCounterClear m k v) s = .next t ∧ t = { s with bus := t.bus } ∧
        (∀ i, i < 8 → bit v 0 = true → tget t.bus.counters (8 * k + i) 0 = 0) ∧
        (∀ j i, i < 8 → j ≠ k → j ≠ m → tget t.bus.counters (8 * j + i) 0 = tget s.bus.counters (8 * j + i) 0) ∧
        (bit v 0 = false → k ≠ m → ∀ i, i < 8 → tget t.bus.counters (8 * k + i) 0 = tget s.bus.counters (8 * k + i) 0)) ∧
    (m ≤ 1 → s.cu.held = false → k ≤ 5 → masterPresent s.fuses.variant k = true →
      ∃ t, exec (.busCounterClear m k v) s = .next t ∧ denied t)

/-! ### Ringmasters (14) -/

/-- WDOG_KICK takes 0x5A and then 0xA5 from its own unit; another unit's write is denied (14 R330). COMMIT_JSN_LO writes its
trigger and EFFECT_JSN in one transaction, from the holder alone of the units (14 R335). RELEASE by the holder frees the baton
for a unit in STANDBY, in a switchover only once that has committed the epoch; a write by the other unit is denied (14 R328, R329, R344). -/
def Obligations.RingmasterRegisters : Prop :=
  ∀ (s : State) (m u v : Nat), u ≤ 1 → m ≤ 1 → masterLive s m = true → s.bus.outstanding = [] → s.bus.requests = [] →
    s.bus.closed = [] → v < 2 ^ 32 →
    let x := s.unit u
    let onlyUnit := fun (t : State) => t = { s with cu := { s.cu with units := t.cu.units }, bus := t.bus } ∧
      (∀ k, k ≠ u → t.unit k = s.unit k) ∧ t.bus.sram = s.bus.sram
    let denied := fun (t : State) => t.stickyBit 914 = true ∧ t = { s with ev := t.ev, bus := t.bus } ∧
      tget t.bus.counters (8 * m + 2) 0 = satInc 32 (tget s.bus.counters (8 * m + 2) 0) ∧ t.bus.sram = s.bus.sram
    (m ≠ u → ∃ t, exec (.wdogKick m u v) s = .next t ∧ denied t) ∧
    (m = u →
      (x.kickHalf = false → ∃ t, exec (.wdogKick m u 0x5A) s = .next t ∧ onlyUnit t ∧ t.unit u = { x with kickHalf := true }) ∧
      (x.kickHalf = true → ∃ t, exec (.wdogKick m u 0xA5) s = .next t ∧ onlyUnit t ∧ t.unit u = { x with kickHalf := false }) ∧
      (v ≠ 0x5A ∨ x.kickHalf = true → v ≠ 0xA5 ∨ x.kickHalf = false → ∃ t, exec (.wdogKick m u v) s = .next t ∧ onlyUnit t ∧
        t.unit u = { x with kickHalf := v == 0x5A, badKicks := satInc 32 x.badKicks })) ∧
    ((s.cu.held = true ∧ s.cu.holder = m) → s.cu.commitAddr = 0 → ∃ t, exec (.commitJsnLo m v) s = .next t ∧
      t.cu = { s.cu with effectJsn := s.cu.commitJsnHi * 2 ^ 32 + v } ∧ t = { s with cu := t.cu, bus := t.bus } ∧
      t.bus.sram = s.bus.sram) ∧
    (∀ o, (s.cu.held = true ∧ s.cu.holder = m) → s.cu.commitAddr ≠ 0 →
      busDest s m true s.cu.commitAddr = .served .sram (4 * o) → memWf 0 s.bus.sram = true →
      ∃ t, exec (.commitJsnLo m v) s = .next t ∧
        t.cu = { s.cu with effectJsn := s.cu.commitJsnHi * 2 ^ 32 + v } ∧
        memWord 0 t.bus.sram (4 * o) = s.cu.commitData % 2 ^ 32 ∧
        (∀ b, b < 4 * o ∨ 4 * o + 4 ≤ b → memGet 0 t.bus.sram b = memGet 0 s.bus.sram b)) ∧
    (¬(s.cu.held = true ∧ s.cu.holder = m) → ∃ t, exec (.commitJsnLo m v) s = .next t ∧ denied t) ∧
    (let may := (s.unit (1 - m)).state = .standby ∧ (s.cu.switchover = none ∨ s.releaseDue = true)
     (s.cu.held = true ∧ s.cu.holder = m) →
      (may → ∃ t, exec (.release m) s = .next t ∧
        t.cu.held = false ∧ t.cu.passing = true ∧ t.unit m = { s.unit m with state := .syncing, claim := false, copyEpoch := 0 } ∧
        (∀ k, k ≠ m → t.unit k = s.unit k) ∧ t.cu.buffers = s.cu.buffers ∧ t.cu.store = s.cu.store ∧
        t = { s with cu := t.cu, bus := t.bus, cmd := { s.cmd with queue := t.cmd.queue, counters := t.cmd.counters } }) ∧
      (¬may → ∃ t, exec (.release m) s = .next t ∧ t = { s with bus := t.bus } ∧ t.bus.sram = s.bus.sram)) ∧
    (¬(s.cu.held = true ∧ s.cu.holder = m) → ∃ t, exec (.release m) s = .next t ∧ denied t)

/-- A watchdog expiry resets its unit, enters its fault and, where the unit holds the baton, frees it; a unit already in reset
is left as it is (14 R328, R330, R345). A failed start-up self-test puts the unit back in reset and counts a failed restart; a
passed one puts it in SYNCING; UNIT_RESTART starts a unit whose hold is over (14 R345), unless both units are FAILED (14 R340). -/
def Obligations.UnitResets : Prop :=
  ∀ (s : State) (u : Nat), u ≤ 1 → s.boot.porstLow = false →
    let x := s.unit u
    let others := fun (t : State) => ∀ k, k ≠ u → t.unit k = s.unit k
    (x.inReset = false → x.repairing = false → x.state ∈ [CuState.standby, .active, .isolated] →
      canClaim s (1 - u) = true →
      ∃ t, exec (.watchdogExpiry u) s = .next t ∧ (t.unit u).state = .off ∧ (t.unit u).inReset = true ∧
        (t.unit u).wdogExpired = true ∧ (t.unit u).claim = false ∧
        ((t.unit u).repairDue = true ↔ s.eff 0x0E05 ≠ 0 ∨ s.cu.noHolder = true) ∧ others t ∧ t.stickyBit 898 = true ∧
        (s.cu.held = true → s.cu.holder = u → t.cu.held = false ∧ t.cu.passing = true) ∧
        (s.cu.held = true → s.cu.holder ≠ u → t.cu.held = true ∧ t.cu.holder = s.cu.holder) ∧
        t.cu.store = s.cu.store ∧ t.cu.buffers = s.cu.buffers ∧ t = { s with
          cu := t.cu, bus := t.bus, ev := t.ev, cmd := { s.cmd with queue := t.cmd.queue, counters := t.cmd.counters } }) ∧
    (x.inReset = true → exec (.watchdogExpiry u) s = .next s) ∧
    (s.ctlLive = true → x.repairDue = true → s.bothFailed = false → firmwareOk s = true → s.cu.held = true →
      ∃ t, exec (.unitRestart u false) s = .next t ∧ (t.unit u).state = .booting ∧ (t.unit u).inReset = false ∧
        (t.unit u).wdogExpired = false ∧ (t.unit u).repairing = true ∧ (t.unit u).repairDue = false ∧
        (t.unit u).firmware = (if s.recovery then 0 else ryunosVersion s s.boot.copy) ∧ others t ∧
        t = { s with cu := t.cu, bus := t.bus } ∧ t.cu.held = true) ∧
    (x.repairDue = false ∨ s.bothFailed = true → ∀ bad, exec (.unitRestart u bad) s = .next s) ∧
    (s.ctlLive = true → x.state = .booting →
      (∃ t, exec (.startupSelftestComplete u true) s = .next t ∧ t.unit u = { x with state := .syncing } ∧ others t ∧
        t = { s with cu := { s.cu with units := t.cu.units } }) ∧
      (s.cu.held = true → x.restartFails + 1 < s.eff 0x0E05 → s.working (fun w => w == .resync u) = false →
        ∃ t, exec (.startupSelftestComplete u false) s = .next t ∧ (t.unit u).state = .off ∧ (t.unit u).inReset = true ∧
          (t.unit u).restartFails = x.restartFails + 1 ∧ (t.unit u).repairDue = true ∧ others t ∧
          t = { s with cu := t.cu, bus := t.bus, ev := t.ev })) ∧
    (x.state ≠ .booting → ∀ b, exec (.startupSelftestComplete u b) s = .next s)

/-- The heartbeats (14 R331 to R333): one path lost raises EV_CU_HB_PATH_LOST; with both lost the holder keeps the baton, and a
STANDBY unit is ISOLATED and asserts its claim; a path seen again is seen, and a holder that had lost both writes an epoch once both
are back.
BATON_CLAIM: a unit that may claim takes a free baton: after a release it completes the switchover, otherwise it takes
over with a TAKEOVER entry, EV_CU_TAKEOVER and an epoch, or, where a record it needs is not there, is FAILED (14 R328, R339, R344); an
entry above EFFECT_JSN is first executed again (`executeAgain`; log entry 63). A switchover without its commit in 5 ms is given up. -/
def Obligations.HeartbeatsAndBaton : Prop :=
  (∀ (s : State) (u path : Nat), u ≤ 1 → path ≤ 1 → s.ctlLive = true → (s.unit u).runs = true →
     let x := s.unit u
     let seen := fun (x : CuUnit) (b : Bool) => if path = 0 then { x with seesMailbox := b } else { x with seesWire := b }
     let holds := s.cu.held = true ∧ s.cu.holder = u
     let only := fun (t : State) => t = { s with ev := t.ev, cu := { s.cu with units := t.cu.units } } ∧
       ∀ k, k ≠ u → t.unit k = s.unit k
     (x.sees path = true → x.sees (1 - path) = true → ∃ t, exec (.heartbeatPathLost u path) s = .next t ∧ only t ∧
       t.unit u = seen x false ∧ t.stickyBit 899 = true) ∧
     (x.sees path = true → x.sees (1 - path) = false → holds → ∃ t, exec (.heartbeatPathLost u path) s = .next t ∧ only t ∧
       t.unit u = { seen x false with bothLost := true } ∧ t.stickyBit 900 = true) ∧
     (x.sees path = true → x.sees (1 - path) = false → ¬holds → x.state = .standby →
       ∃ t, exec (.heartbeatPathLost u path) s = .next t ∧ only t ∧
         t.unit u = { seen x false with bothLost := true, state := .isolated, claim := true } ∧ t.stickyBit 900 = true) ∧
     (x.sees path = false → exec (.heartbeatPathLost u path) s = .next s) ∧
     (x.sees path = false → ¬holds ∨ x.bothLost = false ∨ x.sees (1 - path) = false → (s.unit 0).reclaimDue = false →
       ∃ t, exec (.heartbeatPathBack u path) s = .next t ∧ only t ∧ t.ev = s.ev ∧
         t.unit u = { seen x true with bothLost := x.bothLost && !x.sees (1 - path) }) ∧
     (x.sees path = false → x.sees (1 - path) = true → holds → x.bothLost = true → x.state = .active → s.cu.copying = none →
       (s.unit 0).reclaimDue = false →
       ∃ t b, exec (.heartbeatPathBack u path) s = .next t ∧ t.unit u = { seen x true with bothLost := false } ∧
         (∀ k, k ≠ u → t.unit k = s.unit k) ∧
         t.cu.nextEpoch = s.cu.nextEpoch + 1 ∧ (b = 0 ∨ b = 1) ∧ tget t.cu.buffers b {} =
           { complete := true, magic := true, boot := s.cmd.bootId, number := s.cu.nextEpoch, jsn := s.newestJsn, writer := u
             body := s.epochBody }) ∧
     (x.sees path = true → exec (.heartbeatPathBack u path) s = .next s)) ∧
  (∀ (s : State) (u : Nat), u ≤ 1 → s.ctlLive = true →
     let holder := fun (t : State) => t.cu.held = true ∧ t.cu.holder = u ∧ t.cu.passing = false ∧ t.cu.noHolder = false ∧
       (t.unit u).state = .active ∧ (t.unit u).claim = false ∧ t.cu.passes = (s.cu.passes + 1) % 2 ^ 16
     let entry := fun (t : State) => ∃ j, j ∈ t.cmd.journal ∧ j.kind = EntryKind.takeover.ctorIdx ∧ j.jsn = s.cmd.nextJsn ∧
       j.unit = u
     (s.cu.held = false → s.cu.passing = true → canClaim s u = true → s.cmd.pending = [] →
       (s.cu.switchover = none → replayOk s (match s.newestEpoch with | some b => b.jsn | none => 0) = false →
         ∃ t, exec (.batonClaim u) s = .next t ∧ (t.unit u).state = .failed ∧ t.cu.held = false) ∧
       (s.cu.switchover = none → replayOk s (match s.newestEpoch with | some b => b.jsn | none => 0) = true → s.uncovered = none →
         ∃ t, exec (.batonClaim u) s = .next t ∧ holder t ∧ entry t ∧ t.stickyBit 896 = true ∧
           t.cu.nextEpoch = s.cu.nextEpoch + 1 ∧ (∀ k, k ≠ u → t.unit k = s.unit k)) ∧
       (∀ w, s.cu.switchover = some w → ∃ t, exec (.batonClaim u) s = .next t ∧ holder t ∧ entry t ∧ t.stickyBit 897 = true ∧
           t.cu.switchover = none ∧ t.cu.switchovers = satInc 32 s.cu.switchovers ∧
           (w.reclaim = true → t.stickyBit 907 = true) ∧ (∀ k, k ≠ u → t.unit k = s.unit k))) ∧
     (s.cu.held = true ∨ s.cu.passing = false ∨ canClaim s u = false → exec (.batonClaim u) s = .next s) ∧
     (∀ w, s.cu.switchover = some w → w.committed = false → s.working (fun w => w == .switchover) = false →
       exec .switchoverTimeout s = .next { s with cu := { s.cu with switchover := none } }) ∧
     (∀ w, s.cu.switchover = some w → w.committed = true → exec .switchoverTimeout s = .next s) ∧
     (s.cu.switchover = none → exec .switchoverTimeout s = .next s))

/-- EPOCH_COPY writes a complete epoch into the buffer that does not hold the newest one, which stays whole; stopped in the
middle it leaves no MAGIC there (14 R337). EPOCH_COMMIT loads a newer epoch into the other unit's shadow state and writes its commit
word; the unit is then in STANDBY; a buffer that fails its checks is reported and is complete no more (14 R338). -/
def Obligations.EpochsCopiedAndCommitted : Prop :=
  ∀ (s : State) (u : Nat), s.ctlLive = true → s.cu.held = true →
    let buf := fun (t : State) (i : Nat) => tget t.cu.buffers i {}
    let other := fun (i : Nat) => (buf s i).complete = true ∧ s.newestEpoch = some (buf s i)
    (∀ i, i ≤ 1 → (s.unit s.cu.holder).state = .active → s.cu.copying = none → other i →
      ((buf s (1 - i)).complete = true → (buf s 0).number ≠ (buf s 1).number) →
      (∃ t, exec (.epochCopy true) s = .next t ∧ buf t i = buf s i ∧ buf t (1 - i) =
          { complete := true, magic := true, boot := s.cmd.bootId, number := s.cu.nextEpoch, jsn := s.newestJsn
            writer := s.cu.holder, body := s.epochBody } ∧
        t.cu.nextEpoch = s.cu.nextEpoch + 1 ∧ t.cu.store = s.cu.store ∧ t.cu.units = s.cu.units ∧ t = { s with cu := t.cu }) ∧
      (∃ t, exec (.epochCopy false) s = .next t ∧ buf t i = buf s i ∧ buf t (1 - i) = { buf s (1 - i) with complete := false, magic := false } ∧
        t.newestEpoch = s.newestEpoch ∧ t.cu.copying = some s.cu.nextEpoch ∧ t.cu.nextEpoch = s.cu.nextEpoch ∧
        t = { s with cu := t.cu, cmd := { s.cmd with queue := t.cmd.queue, counters := t.cmd.counters } })) ∧
    ((s.unit s.cu.holder).state ≠ .active → ∀ w, exec (.epochCopy w) s = .next s) ∧
    (∀ b, u ≤ 1 → s.cu.holder ≠ u → (s.unit u).state = .standby → s.newestEpoch = some b → b.writer = s.cu.holder →
      (s.unit u).copyEpoch < b.number → s.cu.switchover = none →
      ∃ t, exec (.epochCommit u false) s = .next t ∧
        t.unit u = { s.unit u with copyEpoch := b.number, commitWord := b.number, copyJsn := b.jsn, shadowJsn := b.jsn
                                   mismatchSinceCommit := false, shadowStop := false } ∧
        (∀ k, k ≠ u → t.unit k = s.unit k) ∧
        t = { s with cu := { s.cu with units := t.cu.units, shadows := tput s.cu.shadows u b.body } }) ∧
    (∀ b, u ≤ 1 → s.cu.holder ≠ u → (s.unit u).state = .syncing → s.newestEpoch = some b → b.writer = s.cu.holder →
      (s.unit u).copyEpoch < b.number → s.cu.switchover = none → s.working (fun w => w == .resync u) = false →
      (s.unit 0).reclaimDue = false →
      ∃ t, exec (.epochCommit u false) s = .next t ∧ (t.unit u).state = .standby ∧ (t.unit u).copyEpoch = b.number ∧
        (t.unit u).copyJsn = b.jsn ∧ (t.unit u).restartFails = 0 ∧ (t.unit u).repairing = false ∧ t.stickyBit 905 = true ∧
        (t.unit u).commitWord = b.number ∧ (∀ k, k ≠ u → t.unit k = s.unit k) ∧
        t = { s with ev := t.ev, cu := { s.cu with units := t.cu.units, shadows := tput s.cu.shadows u b.body } }) ∧
    (∀ b, u ≤ 1 → s.cu.holder ≠ u → (s.unit u).state ∈ [CuState.syncing, .standby] → s.newestEpoch = some b →
      ∃ t, exec (.epochCommit u true) s = .next t ∧ t.stickyBit 903 = true ∧
        t = { s with ev := t.ev, cu := { s.cu with buffers := t.cu.buffers } } ∧
        ∀ i, (buf t i).complete = ((buf s i).complete && (buf s i).number != b.number)) ∧
    (s.cu.holder = u → ∀ bad, exec (.epochCommit u bad) s = .next s)

/-- SHADOW_EXECUTE advances a STANDBY unit by one record, counts it, and reports a digest that differs; a record overwritten
before it stops the shadowing (14 R341). SELFTEST_CYCLE_STEP runs the next step of a unit's plan; a failed step is run again
once, and a second failure puts the unit into FAILED (14 R342). -/
def Obligations.ShadowAndSelftest : Prop :=
  ∀ (s : State) (u : Nat), u ≤ 1 → s.ctlLive = true →
    let x := s.unit u
    let only := fun (t : State) => t = { s with cu := { s.cu with units := t.cu.units } } ∧ ∀ k, k ≠ u → t.unit k = s.unit k
    (s.cu.holder ≠ u → x.state = .standby → x.shadowStop = false →
      (x.shadowJsn < s.cu.storeLost → ∀ d, ∃ t, exec (.shadowExecute u d) s = .next t ∧ only t ∧
        t.unit u = { x with shadowStop := true, overruns := satInc 32 x.overruns }) ∧
      (s.cu.storeLost ≤ x.shadowJsn → ∀ r, nextShadow s u = some r →
        (∃ t, exec (.shadowExecute u false) s = .next t ∧ only t ∧
          t.unit u = { x with shadowJsn := r.jsn, shadowed := x.shadowed + 1 }) ∧
        (∃ t, exec (.shadowExecute u true) s = .next t ∧ t.stickyBit 901 = true ∧
          (t.unit u).mismatches = satInc 32 x.mismatches ∧ (t.unit u).lastMismatch = r.jsn ∧ (t.unit u).shadowJsn = r.jsn ∧
          (t.unit u).mismatchSinceCommit = true ∧ (∀ k, k ≠ u → t.unit k = s.unit k) ∧
          t = { s with ev := t.ev, cu := t.cu })) ∧
      (s.cu.storeLost ≤ x.shadowJsn → nextShadow s u = none → ∀ d, exec (.shadowExecute u d) s = .next s)) ∧
    (x.state ≠ .standby ∨ x.shadowStop = true → ∀ d, exec (.shadowExecute u d) s = .next s) ∧
    (x.state ∈ [CuState.standby, .isolated, .active] →
      (∃ t, exec (.selftestCycleStep u true) s = .next t ∧
        (s.working (fun w => match w with | .selftest 0 _ _ => true | _ => false) = false → only t) ∧ (t.unit u).selftests = x.selftests + 1 ∧
        (t.unit u).retryStep = none ∧ (t.unit u).state = x.state ∧ (t.unit u).cycleSteps =
          (if x.cycleSteps + 1 < planSteps s u then x.cycleSteps + 1 else 0)) ∧
      (x.retryStep = none → ∃ t, exec (.selftestCycleStep u false) s = .next t ∧ only t ∧
        t.unit u = { x with retryStep := some x.cycleSteps, cycleFailed := x.cycleFailed + 1 }) ∧
      (x.retryStep ≠ none → s.cu.held = true ∨ canClaim s (1 - u) = true →
        ∃ t, exec (.selftestCycleStep u false) s = .next t ∧ (t.unit u).state = .failed ∧
        t.stickyBit 902 = true ∧ (∀ k, k ≠ u → t.unit k = s.unit k) ∧ t.cu.held = s.cu.held ∧ t.cu.holder = s.cu.holder)) ∧
    (x.state ∉ [CuState.standby, .isolated, .active] → ∀ b, exec (.selftestCycleStep u b) s = .next s)

/-! ### Calliope (18) -/

/-- A strobe, from the STROBE register or from CAL_LOAD 2 cycles after its edge, takes the pending configurations of the
channels that are in its groups then, and of no other channel (18 R402, R403); a word written to a queue aperture adds two
samples, or is dropped whole where a sample is out of range or the queue is full (18 R406).
CAL_STROBE_APPLY makes the taken configurations active on their channels at one DAC sample, 8 core cycles or more after the
strobe, and leaves a channel outside its groups as it is (18 R403, R404); a forced safe code whose cause has ended ends there
(18 R408).
CAL_QUEUE_SAMPLE plays the next sample every DIVIDER DAC samples; an empty queue is an underrun, and a word that fails
parity forces the safe code (18 R406 to R408). CAL_NCO_SAMPLE gives the code of the phase and moves it by PHASE_INC
modulo 2^48 (18 R405). -/
def Obligations.CalliopeOutputs : Prop :=
  (∀ (s : State) (value n word : Nat), s.ctlLive = true →
     let taken := fun (t : State) (groups cycle : Nat) =>
       let now := fun (k : Nat) => bit (groups % 256) (s.calCh k).active.group
       (∀ k, k < 4 → t.calCh k = { s.calCh k with waiting := if now k then none else (s.calCh k).waiting }) ∧
       (s.cal.strobes = [] → ∃ x, t.cal.strobes = [x] ∧ x.groups = groups % 256 ∧ x.cycle = cycle ∧
         ∀ k, k < 4 → tfind x.configs k = if now k then (s.calCh k).waiting else none) ∧ t = { s with cal := t.cal }
     let a := toSigned 16 (bits word 31 16)
     let b := toSigned 16 (bits word 15 0)
     let fits := -8191 ≤ a ∧ a ≤ 8191 ∧ -8191 ≤ b ∧ b ≤ 8191 ∧ (s.calCh n).queue.length + 2 ≤ 32768
     let only := fun (t : State) => t = { s with ev := t.ev, cal := { s.cal with channels := t.cal.channels } } ∧
       ∀ k, k ≠ n → t.calCh k = s.calCh k
     (value % 256 ≠ 0 → ∃ t, exec (.calliopeStrobeRegister value) s = .next t ∧ taken t value s.cycle) ∧
     (value % 256 = 0 → exec (.calliopeStrobeRegister value) s = .next s) ∧
     (s.eff 0x0C04 % 256 ≠ 0 → ∃ t, exec .calLoadEdge s = .next t ∧ taken t (s.eff 0x0C04) (s.cycle + 2)) ∧
     (n < 4 → fits → ∃ t, exec (.queueApertureWrite n word) s = .next t ∧ only t ∧ t.ev = s.ev ∧
       t.calCh n = { s.calCh n with queue := (s.calCh n).queue ++ [a, b] }) ∧
     (n < 4 → ¬fits → ∃ t, exec (.queueApertureWrite n word) s = .next t ∧ only t ∧ t.stickyBit 1011 = true ∧
       t.calCh n = { s.calCh n with drops := satInc 32 (s.calCh n).drops })) ∧
  (∀ (s : State) (dt : Nat) (x : CalStrobe) (xs : List CalStrobe), s.cal.strobes = x :: xs →
     let at' := (x.cycle + 11) / 4
     (4 * at' ≤ s.cycle + dt → ∃ t, exec (.calStrobeApply dt) s = .next t ∧ t.cal.strobes = xs ∧
       t = { s.advance dt with cal := t.cal } ∧
       ∀ n, n < 4 →
         let c := s.calCh n
         let y := t.calCh n
         (bit x.groups c.active.group = false → y = c) ∧
         (bit x.groups c.active.group = true → y.strobes = satInc 32 c.strobes) ∧
         (∀ w, bit x.groups c.active.group = true → tfind x.configs n = some w → y.active = w ∧ y.due = at' ∧
           (w.mode = 1 → y.phase = w.phase0) ∧ (w.mode ≠ 2 → y.queue = []) ∧ (w.mode = 2 → y.queue = c.queue) ∧
           (w.mode = 0 → y.code = if s.cal.safeRead then calSafe s n else 0)) ∧
         (bit x.groups c.active.group = true → c.forced = true → c.cause ≠ 3 → s.pwr.low = 0 → 5 ∉ s.pwr.agreed →
           y.forced = false ∧ y.cause = 0) ∧
         (bit x.groups c.active.group = true → c.forced = true → s.pwr.low ≠ 0 → y.forced = true ∧ y.cause = c.cause)) ∧
     (s.cycle + dt < 4 * at' → exec (.calStrobeApply dt) s = .next (s.advance dt))) ∧
  (∀ (s : State) (n dt : Nat), n < 4 → s.ctlLive = true → s.cal.safeRead = true → (s.calCh n).forced = false →
     let c := s.calCh n
     let s1 := s.advance dt
     let only := fun (t : State) => t = { s1 with ev := t.ev, cal := { s.cal with channels := t.cal.channels } } ∧
       ∀ k, k ≠ n → t.calCh k = s.calCh k
     let due := 4 * c.due ≤ s.cycle + dt
     (c.active.mode = 2 → due →
       (∀ x xs, c.queue = x :: xs →
         (∃ t, exec (.calQueueSample n dt false) s = .next t ∧ only t ∧ t.ev = s.ev ∧
           t.calCh n = { c with queue := xs, code := x, due := c.due + c.active.divider }) ∧
         (∃ t, exec (.calQueueSample n dt true) s = .next t ∧ only t ∧ t.stickyBit 1009 = true ∧ t.stickyBit 1010 = true ∧
           t.calCh n = { c with queue := xs, code := calSafe s n, due := c.due + c.active.divider, forced := true
                                cause := 4 })) ∧
       (c.queue = [] → ∀ bad, ∃ t, exec (.calQueueSample n dt bad) s = .next t ∧ only t ∧ t.stickyBit 1008 = true ∧
         t.stickyBit 1010 = true ∧
         t.calCh n = { c with underruns := satInc 32 c.underruns, code := calSafe s n, forced := true, cause := 3 })) ∧
     (c.active.mode = 1 → due → ∃ t, exec (.calNcoSample n dt) s = .next t ∧ only t ∧ t.ev = s.ev ∧
       t.calCh n = { c with code := ncoCode c.phase c.active.amplitude, due := c.due + 1
                            phase := (c.phase + c.active.phaseInc) % 2 ^ 48 }) ∧
     (c.active.mode ≠ 2 ∨ ¬due → ∀ bad, exec (.calQueueSample n dt bad) s = .next s1) ∧
     (c.active.mode ≠ 1 ∨ ¬due → exec (.calNcoSample n dt) s = .next s1))
end

