-- ==== Sys2Proof/Laws/Tab.lean ====
section
/-! SUPPORT. Laws of the tables: what an entry reads as after a write, a change or a removal. -/

namespace Sys2Proof.Laws

open Sys2Proof.Machine

variable {α : Type}

@[simp] theorem tget_nil (k : Nat) (d : α) : tget [] k d = d := rfl
@[simp] theorem tfind_nil (k : Nat) : tfind ([] : Tab α) k = none := rfl
@[simp] theorem thas_nil (k : Nat) : thas ([] : Tab α) k = false := rfl

/-- An entry written reads back. -/
@[simp] theorem tget_tput_same (t : Tab α) (k : Nat) (v d : α) : tget (tput t k v) k d = v := by
  induction t with
  | nil => simp [tput, tget]
  | cons e t ih =>
    simp only [tput]
    split
    · simp [tget]
    · split
      · simp [tget]
      · simp [tget, *]

/-- A write leaves every other index alone. -/
theorem tget_tput_other (t : Tab α) (k j : Nat) (v d : α) (h : j ≠ k) : tget (tput t k v) j d = tget t j d := by
  have h' : k ≠ j := Ne.symm h
  induction t with
  | nil => simp [tput, tget, h']
  | cons e t ih =>
    simp only [tput]
    split
    · next he => subst he; simp [tget, h']
    · split
      · simp [tget, h']
      · simp [tget, ih]

@[simp] theorem tfind_tput_same (t : Tab α) (k : Nat) (v : α) : tfind (tput t k v) k = some v := by
  induction t with
  | nil => simp [tput, tfind]
  | cons e t ih =>
    simp only [tput]
    split
    · simp [tfind]
    · split
      · simp [tfind]
      · simp [tfind, *]

theorem tfind_tput_other (t : Tab α) (k j : Nat) (v : α) (h : j ≠ k) : tfind (tput t k v) j = tfind t j := by
  have h' : k ≠ j := Ne.symm h
  induction t with
  | nil => simp [tput, tfind, h']
  | cons e t ih =>
    simp only [tput]
    split
    · next he => subst he; simp [tfind, h']
    · split
      · simp [tfind, h']
      · simp [tfind, ih]

/-- What a table reads as, in terms of whether it has an entry. -/
theorem tget_eq_tfind (t : Tab α) (k : Nat) (d : α) : tget t k d = (tfind t k).getD d := by
  induction t with
  | nil => rfl
  | cons e t ih => simp only [tget, tfind]; split <;> simp [ih]

theorem thas_eq_tfind (t : Tab α) (k : Nat) : thas t k = (tfind t k).isSome := by
  induction t with
  | nil => rfl
  | cons e t ih =>
    have ih' : (t.any fun e => e.1 == k) = (tfind t k).isSome := ih
    simp only [thas, tfind, List.any_cons, ih']
    by_cases h : e.1 = k <;> simp [h]

@[simp] theorem tmod_same (t : Tab α) (k : Nat) (d d' : α) (f : α → α) : tget (tmod t k d f) k d' = f (tget t k d) :=
  tget_tput_same ..

theorem tmod_other (t : Tab α) (k j : Nat) (d d' : α) (f : α → α) (h : j ≠ k) : tget (tmod t k d f) j d' = tget t j d' :=
  tget_tput_other _ _ _ _ _ h

@[simp] theorem tfind_tdel_same (t : Tab α) (k : Nat) : tfind (tdel t k) k = none := by
  induction t with
  | nil => rfl
  | cons e t ih =>
    simp only [tdel, List.filter_cons]
    by_cases h : e.1 = k
    · simpa [h, tdel] using ih
    · simpa [h, tfind, tdel] using ih

theorem tfind_tdel_other (t : Tab α) (k j : Nat) (h : j ≠ k) : tfind (tdel t k) j = tfind t j := by
  induction t with
  | nil => rfl
  | cons e t ih =>
    simp only [tdel, List.filter_cons]
    by_cases h1 : e.1 = k
    · have h2 : k ≠ j := Ne.symm h
      simpa [h1, tfind, h2, tdel] using ih
    · by_cases h3 : e.1 = j
      · simp [tfind, h3, h]
      · simpa [h1, tfind, h3, tdel] using ih

@[simp] theorem tget_tdel_same (t : Tab α) (k : Nat) (d : α) : tget (tdel t k) k d = d := by simp [tget_eq_tfind]

theorem tget_tdel_other (t : Tab α) (k j : Nat) (d : α) (h : j ≠ k) : tget (tdel t k) j d = tget t j d := by
  simp [tget_eq_tfind, tfind_tdel_other _ _ _ h]

end Sys2Proof.Laws
end

