-- ==== Sys2Proof/Laws/State.lean ====
section
/-! SUPPORT. Laws of the state: what each named update changes, field by field, and what each named part reads as after it. -/

namespace Sys2Proof.Laws

open Sys2Proof.Machine

/-! ### A change of a time base -/

@[simp] theorem onTb_fields (s : State) (n : Nat) (f : TimeBase → TimeBase) :
    (s.onTb n f).fuses = s.fuses ∧ (s.onTb n f).set = s.set ∧ (s.onTb n f).cycle = s.cycle ∧ (s.onTb n f).free = s.free ∧
      (s.onTb n f).alarms = s.alarms ∧ (s.onTb n f).orb = s.orb ∧ (s.onTb n f).ev = s.ev ∧ (s.onTb n f).hps = s.hps ∧
      (s.onTb n f).refsLost = s.refsLost ∧ (s.onTb n f).mp = s.mp ∧ (s.onTb n f).ing = s.ing ∧ (s.onTb n f).cmd = s.cmd ∧
      (s.onTb n f).cu = s.cu ∧ (s.onTb n f).bus = s.bus ∧ (s.onTb n f).pwr = s.pwr ∧ (s.onTb n f).cal = s.cal ∧
      (s.onTb n f).boot = s.boot ∧ (s.onTb n f).prg = s.prg ∧ (s.onTb n f).ch = s.ch ∧ (s.onTb n f).ct = s.ct ∧
      (s.onTb n f).cap = s.cap ∧ (s.onTb n f).hbm = s.hbm ∧ (s.onTb n f).engines = s.engines ∧ (s.onTb n f).car = s.car ∧
      (s.onTb n f).beams = s.beams ∧ (s.onTb n f).finishes = s.finishes ∧ (s.onTb n f).powers = s.powers ∧
      (s.onTb n f).streams = s.streams ∧ (s.onTb n f).dma = s.dma ∧ (s.onTb n f).sent = s.sent ∧
      (s.onTb n f).pending = s.pending :=
  ⟨rfl, rfl, rfl, rfl, rfl, rfl, rfl, rfl, rfl, rfl, rfl, rfl, rfl, rfl, rfl, rfl, rfl, rfl,
   rfl, rfl, rfl, rfl, rfl, rfl, rfl, rfl, rfl, rfl, rfl, rfl, rfl⟩

@[simp] theorem tb_onTb (s : State) (n : Nat) (f : TimeBase → TimeBase) : (s.onTb n f).tb n = f (s.tb n) := by
  simp [State.onTb, State.tb]

theorem tb_onTb_other (s : State) (n j : Nat) (f : TimeBase → TimeBase) (h : j ≠ n) : (s.onTb n f).tb j = s.tb j := by
  simp [State.onTb, State.tb, tget_tput_other _ _ _ _ _ h]

/-! ### A change of a half-port -/

@[simp] theorem onHp_fields (s : State) (h : Nat) (f : HalfPort → HalfPort) :
    (s.onHp h f).fuses = s.fuses ∧ (s.onHp h f).set = s.set ∧ (s.onHp h f).cycle = s.cycle ∧ (s.onHp h f).free = s.free ∧
      (s.onHp h f).tbs = s.tbs ∧ (s.onHp h f).alarms = s.alarms ∧ (s.onHp h f).orb = s.orb ∧ (s.onHp h f).ev = s.ev ∧
      (s.onHp h f).refsLost = s.refsLost ∧ (s.onHp h f).mp = s.mp ∧ (s.onHp h f).ing = s.ing ∧ (s.onHp h f).cmd = s.cmd ∧
      (s.onHp h f).cu = s.cu ∧ (s.onHp h f).bus = s.bus ∧ (s.onHp h f).pwr = s.pwr ∧ (s.onHp h f).cal = s.cal ∧
      (s.onHp h f).boot = s.boot ∧ (s.onHp h f).prg = s.prg ∧ (s.onHp h f).ch = s.ch ∧ (s.onHp h f).ct = s.ct ∧
      (s.onHp h f).cap = s.cap ∧ (s.onHp h f).hbm = s.hbm ∧ (s.onHp h f).engines = s.engines ∧ (s.onHp h f).car = s.car ∧
      (s.onHp h f).beams = s.beams ∧ (s.onHp h f).finishes = s.finishes ∧ (s.onHp h f).powers = s.powers ∧
      (s.onHp h f).streams = s.streams ∧ (s.onHp h f).dma = s.dma ∧ (s.onHp h f).sent = s.sent ∧
      (s.onHp h f).pending = s.pending :=
  ⟨rfl, rfl, rfl, rfl, rfl, rfl, rfl, rfl, rfl, rfl, rfl, rfl, rfl, rfl, rfl, rfl, rfl, rfl,
   rfl, rfl, rfl, rfl, rfl, rfl, rfl, rfl, rfl, rfl, rfl, rfl, rfl⟩

@[simp] theorem hp_onHp (s : State) (h : Nat) (f : HalfPort → HalfPort) : (s.onHp h f).hp h = f (s.hp h) := by
  simp [State.onHp, State.hp]

theorem hp_onHp_other (s : State) (p j : Nat) (f : HalfPort → HalfPort) (h : j ≠ p) : (s.onHp p f).hp j = s.hp j := by
  simp [State.onHp, State.hp, tget_tput_other _ _ _ _ _ h]

/-! ### A change of a engine -/

@[simp] theorem onEng_fields (s : State) (e : Nat) (f : Engine → Engine) :
    (s.onEng e f).fuses = s.fuses ∧ (s.onEng e f).set = s.set ∧ (s.onEng e f).cycle = s.cycle ∧ (s.onEng e f).free = s.free ∧
      (s.onEng e f).tbs = s.tbs ∧ (s.onEng e f).alarms = s.alarms ∧ (s.onEng e f).orb = s.orb ∧ (s.onEng e f).ev = s.ev ∧
      (s.onEng e f).hps = s.hps ∧ (s.onEng e f).refsLost = s.refsLost ∧ (s.onEng e f).mp = s.mp ∧ (s.onEng e f).ing = s.ing ∧
      (s.onEng e f).cmd = s.cmd ∧ (s.onEng e f).cu = s.cu ∧ (s.onEng e f).bus = s.bus ∧ (s.onEng e f).pwr = s.pwr ∧
      (s.onEng e f).cal = s.cal ∧ (s.onEng e f).boot = s.boot ∧ (s.onEng e f).prg = s.prg ∧ (s.onEng e f).ch = s.ch ∧
      (s.onEng e f).ct = s.ct ∧ (s.onEng e f).cap = s.cap ∧ (s.onEng e f).hbm = s.hbm ∧ (s.onEng e f).car = s.car ∧
      (s.onEng e f).beams = s.beams ∧ (s.onEng e f).finishes = s.finishes ∧ (s.onEng e f).powers = s.powers ∧
      (s.onEng e f).streams = s.streams ∧ (s.onEng e f).dma = s.dma ∧ (s.onEng e f).sent = s.sent ∧
      (s.onEng e f).pending = s.pending :=
  ⟨rfl, rfl, rfl, rfl, rfl, rfl, rfl, rfl, rfl, rfl, rfl, rfl, rfl, rfl, rfl, rfl, rfl, rfl,
   rfl, rfl, rfl, rfl, rfl, rfl, rfl, rfl, rfl, rfl, rfl, rfl, rfl⟩

@[simp] theorem eng_onEng (s : State) (e : Nat) (f : Engine → Engine) : (s.onEng e f).eng e = f (s.eng e) := by
  simp [State.onEng, State.eng]

theorem eng_onEng_other (s : State) (e j : Nat) (f : Engine → Engine) (h : j ≠ e) : (s.onEng e f).eng j = s.eng j := by
  simp [State.onEng, State.eng, tget_tput_other _ _ _ _ _ h]

/-! ### A change of a DMA channel -/

@[simp] theorem onDch_fields (s : State) (c : Nat) (f : DmaChannel → DmaChannel) :
    (s.onDch c f).fuses = s.fuses ∧ (s.onDch c f).set = s.set ∧ (s.onDch c f).cycle = s.cycle ∧ (s.onDch c f).free = s.free ∧
      (s.onDch c f).tbs = s.tbs ∧ (s.onDch c f).alarms = s.alarms ∧ (s.onDch c f).orb = s.orb ∧ (s.onDch c f).ev = s.ev ∧
      (s.onDch c f).hps = s.hps ∧ (s.onDch c f).refsLost = s.refsLost ∧ (s.onDch c f).mp = s.mp ∧ (s.onDch c f).ing = s.ing ∧
      (s.onDch c f).cmd = s.cmd ∧ (s.onDch c f).cu = s.cu ∧ (s.onDch c f).bus = s.bus ∧ (s.onDch c f).pwr = s.pwr ∧
      (s.onDch c f).cal = s.cal ∧ (s.onDch c f).boot = s.boot ∧ (s.onDch c f).prg = s.prg ∧ (s.onDch c f).ch = s.ch ∧
      (s.onDch c f).ct = s.ct ∧ (s.onDch c f).cap = s.cap ∧ (s.onDch c f).hbm = s.hbm ∧ (s.onDch c f).engines = s.engines ∧
      (s.onDch c f).car = s.car ∧ (s.onDch c f).beams = s.beams ∧ (s.onDch c f).finishes = s.finishes ∧
      (s.onDch c f).powers = s.powers ∧ (s.onDch c f).streams = s.streams ∧ (s.onDch c f).sent = s.sent ∧
      (s.onDch c f).pending = s.pending :=
  ⟨rfl, rfl, rfl, rfl, rfl, rfl, rfl, rfl, rfl, rfl, rfl, rfl, rfl, rfl, rfl, rfl, rfl, rfl,
   rfl, rfl, rfl, rfl, rfl, rfl, rfl, rfl, rfl, rfl, rfl, rfl, rfl⟩

@[simp] theorem dch_onDch (s : State) (c : Nat) (f : DmaChannel → DmaChannel) : (s.onDch c f).dch c = f (s.dch c) := by
  simp [State.onDch, State.dch]

theorem dch_onDch_other (s : State) (c j : Nat) (f : DmaChannel → DmaChannel) (h : j ≠ c) : (s.onDch c f).dch j = s.dch j := by
  simp [State.onDch, State.dch, tget_tput_other _ _ _ _ _ h]

/-! ### A change of a Ringmaster -/

@[simp] theorem onUnit_fields (s : State) (u : Nat) (f : CuUnit → CuUnit) :
    (s.onUnit u f).fuses = s.fuses ∧ (s.onUnit u f).set = s.set ∧ (s.onUnit u f).cycle = s.cycle ∧
      (s.onUnit u f).free = s.free ∧ (s.onUnit u f).tbs = s.tbs ∧ (s.onUnit u f).alarms = s.alarms ∧
      (s.onUnit u f).orb = s.orb ∧ (s.onUnit u f).ev = s.ev ∧ (s.onUnit u f).hps = s.hps ∧
      (s.onUnit u f).refsLost = s.refsLost ∧ (s.onUnit u f).mp = s.mp ∧ (s.onUnit u f).ing = s.ing ∧
      (s.onUnit u f).cmd = s.cmd ∧ (s.onUnit u f).bus = s.bus ∧ (s.onUnit u f).pwr = s.pwr ∧ (s.onUnit u f).cal = s.cal ∧
      (s.onUnit u f).boot = s.boot ∧ (s.onUnit u f).prg = s.prg ∧ (s.onUnit u f).ch = s.ch ∧ (s.onUnit u f).ct = s.ct ∧
      (s.onUnit u f).cap = s.cap ∧ (s.onUnit u f).hbm = s.hbm ∧ (s.onUnit u f).engines = s.engines ∧
      (s.onUnit u f).car = s.car ∧ (s.onUnit u f).beams = s.beams ∧ (s.onUnit u f).finishes = s.finishes ∧
      (s.onUnit u f).powers = s.powers ∧ (s.onUnit u f).streams = s.streams ∧ (s.onUnit u f).dma = s.dma ∧
      (s.onUnit u f).sent = s.sent ∧ (s.onUnit u f).pending = s.pending :=
  ⟨rfl, rfl, rfl, rfl, rfl, rfl, rfl, rfl, rfl, rfl, rfl, rfl, rfl, rfl, rfl, rfl, rfl, rfl,
   rfl, rfl, rfl, rfl, rfl, rfl, rfl, rfl, rfl, rfl, rfl, rfl, rfl⟩

@[simp] theorem unit_onUnit (s : State) (u : Nat) (f : CuUnit → CuUnit) : (s.onUnit u f).unit u = f (s.unit u) := by
  simp [State.onUnit, State.unit]

theorem unit_onUnit_other (s : State) (u j : Nat) (f : CuUnit → CuUnit) (h : j ≠ u) : (s.onUnit u f).unit j = s.unit j := by
  simp [State.onUnit, State.unit, tget_tput_other _ _ _ _ _ h]

/-! ### A change of a programme slot -/

@[simp] theorem onSlot_fields (s : State) (i : Nat) (f : ProgSlot → ProgSlot) :
    (s.onSlot i f).fuses = s.fuses ∧ (s.onSlot i f).set = s.set ∧ (s.onSlot i f).cycle = s.cycle ∧
      (s.onSlot i f).free = s.free ∧ (s.onSlot i f).tbs = s.tbs ∧ (s.onSlot i f).alarms = s.alarms ∧
      (s.onSlot i f).orb = s.orb ∧ (s.onSlot i f).ev = s.ev ∧ (s.onSlot i f).hps = s.hps ∧
      (s.onSlot i f).refsLost = s.refsLost ∧ (s.onSlot i f).mp = s.mp ∧ (s.onSlot i f).ing = s.ing ∧
      (s.onSlot i f).cmd = s.cmd ∧ (s.onSlot i f).cu = s.cu ∧ (s.onSlot i f).bus = s.bus ∧ (s.onSlot i f).pwr = s.pwr ∧
      (s.onSlot i f).cal = s.cal ∧ (s.onSlot i f).boot = s.boot ∧ (s.onSlot i f).ch = s.ch ∧ (s.onSlot i f).ct = s.ct ∧
      (s.onSlot i f).cap = s.cap ∧ (s.onSlot i f).hbm = s.hbm ∧ (s.onSlot i f).engines = s.engines ∧
      (s.onSlot i f).car = s.car ∧ (s.onSlot i f).beams = s.beams ∧ (s.onSlot i f).finishes = s.finishes ∧
      (s.onSlot i f).powers = s.powers ∧ (s.onSlot i f).streams = s.streams ∧ (s.onSlot i f).dma = s.dma ∧
      (s.onSlot i f).sent = s.sent ∧ (s.onSlot i f).pending = s.pending :=
  ⟨rfl, rfl, rfl, rfl, rfl, rfl, rfl, rfl, rfl, rfl, rfl, rfl, rfl, rfl, rfl, rfl, rfl, rfl,
   rfl, rfl, rfl, rfl, rfl, rfl, rfl, rfl, rfl, rfl, rfl, rfl, rfl⟩

@[simp] theorem slot_onSlot (s : State) (i : Nat) (f : ProgSlot → ProgSlot) : (s.onSlot i f).slot i = f (s.slot i) := by
  simp [State.onSlot, State.slot]

theorem slot_onSlot_other (s : State) (i j : Nat) (f : ProgSlot → ProgSlot) (h : j ≠ i) : (s.onSlot i f).slot j = s.slot j := by
  simp [State.onSlot, State.slot, tget_tput_other _ _ _ _ _ h]

/-! ### A change of a session slot -/

@[simp] theorem onSession_fields (s : State) (i : Nat) (f : Session → Session) :
    (s.onSession i f).fuses = s.fuses ∧ (s.onSession i f).set = s.set ∧ (s.onSession i f).cycle = s.cycle ∧
      (s.onSession i f).free = s.free ∧ (s.onSession i f).tbs = s.tbs ∧ (s.onSession i f).alarms = s.alarms ∧
      (s.onSession i f).orb = s.orb ∧ (s.onSession i f).ev = s.ev ∧ (s.onSession i f).hps = s.hps ∧
      (s.onSession i f).refsLost = s.refsLost ∧ (s.onSession i f).mp = s.mp ∧ (s.onSession i f).ing = s.ing ∧
      (s.onSession i f).cu = s.cu ∧ (s.onSession i f).bus = s.bus ∧ (s.onSession i f).pwr = s.pwr ∧
      (s.onSession i f).cal = s.cal ∧ (s.onSession i f).boot = s.boot ∧ (s.onSession i f).prg = s.prg ∧
      (s.onSession i f).ch = s.ch ∧ (s.onSession i f).ct = s.ct ∧ (s.onSession i f).cap = s.cap ∧
      (s.onSession i f).hbm = s.hbm ∧ (s.onSession i f).engines = s.engines ∧ (s.onSession i f).car = s.car ∧
      (s.onSession i f).beams = s.beams ∧ (s.onSession i f).finishes = s.finishes ∧ (s.onSession i f).powers = s.powers ∧
      (s.onSession i f).streams = s.streams ∧ (s.onSession i f).dma = s.dma ∧ (s.onSession i f).sent = s.sent ∧
      (s.onSession i f).pending = s.pending :=
  ⟨rfl, rfl, rfl, rfl, rfl, rfl, rfl, rfl, rfl, rfl, rfl, rfl, rfl, rfl, rfl, rfl, rfl, rfl,
   rfl, rfl, rfl, rfl, rfl, rfl, rfl, rfl, rfl, rfl, rfl, rfl, rfl⟩

@[simp] theorem session_onSession (s : State) (i : Nat) (f : Session → Session) : (s.onSession i f).session i = f (s.session i) := by
  simp [State.onSession, State.session]

theorem session_onSession_other (s : State) (i j : Nat) (f : Session → Session) (h : j ≠ i) : (s.onSession i f).session j = s.session j := by
  simp [State.onSession, State.session, tget_tput_other _ _ _ _ _ h]

/-! ### A change of a Calliope channel -/

@[simp] theorem onCal_fields (s : State) (n : Nat) (f : CalChannel → CalChannel) :
    (s.onCal n f).fuses = s.fuses ∧ (s.onCal n f).set = s.set ∧ (s.onCal n f).cycle = s.cycle ∧ (s.onCal n f).free = s.free ∧
      (s.onCal n f).tbs = s.tbs ∧ (s.onCal n f).alarms = s.alarms ∧ (s.onCal n f).orb = s.orb ∧ (s.onCal n f).ev = s.ev ∧
      (s.onCal n f).hps = s.hps ∧ (s.onCal n f).refsLost = s.refsLost ∧ (s.onCal n f).mp = s.mp ∧ (s.onCal n f).ing = s.ing ∧
      (s.onCal n f).cmd = s.cmd ∧ (s.onCal n f).cu = s.cu ∧ (s.onCal n f).bus = s.bus ∧ (s.onCal n f).pwr = s.pwr ∧
      (s.onCal n f).boot = s.boot ∧ (s.onCal n f).prg = s.prg ∧ (s.onCal n f).ch = s.ch ∧ (s.onCal n f).ct = s.ct ∧
      (s.onCal n f).cap = s.cap ∧ (s.onCal n f).hbm = s.hbm ∧ (s.onCal n f).engines = s.engines ∧ (s.onCal n f).car = s.car ∧
      (s.onCal n f).beams = s.beams ∧ (s.onCal n f).finishes = s.finishes ∧ (s.onCal n f).powers = s.powers ∧
      (s.onCal n f).streams = s.streams ∧ (s.onCal n f).dma = s.dma ∧ (s.onCal n f).sent = s.sent ∧
      (s.onCal n f).pending = s.pending :=
  ⟨rfl, rfl, rfl, rfl, rfl, rfl, rfl, rfl, rfl, rfl, rfl, rfl, rfl, rfl, rfl, rfl, rfl, rfl,
   rfl, rfl, rfl, rfl, rfl, rfl, rfl, rfl, rfl, rfl, rfl, rfl, rfl⟩

@[simp] theorem calCh_onCal (s : State) (n : Nat) (f : CalChannel → CalChannel) : (s.onCal n f).calCh n = f (s.calCh n) := by
  simp [State.onCal, State.calCh]

theorem calCh_onCal_other (s : State) (n j : Nat) (f : CalChannel → CalChannel) (h : j ≠ n) : (s.onCal n f).calCh j = s.calCh j := by
  simp [State.onCal, State.calCh, tget_tput_other _ _ _ _ _ h]

/-! ### A change of a stage A path -/

@[simp] theorem onChan_fields (s : State) (q : Nat) (f : ChanPath → ChanPath) :
    (s.onChan q f).fuses = s.fuses ∧ (s.onChan q f).set = s.set ∧ (s.onChan q f).cycle = s.cycle ∧
      (s.onChan q f).free = s.free ∧ (s.onChan q f).tbs = s.tbs ∧ (s.onChan q f).alarms = s.alarms ∧
      (s.onChan q f).orb = s.orb ∧ (s.onChan q f).ev = s.ev ∧ (s.onChan q f).hps = s.hps ∧
      (s.onChan q f).refsLost = s.refsLost ∧ (s.onChan q f).mp = s.mp ∧ (s.onChan q f).ing = s.ing ∧
      (s.onChan q f).cmd = s.cmd ∧ (s.onChan q f).cu = s.cu ∧ (s.onChan q f).bus = s.bus ∧ (s.onChan q f).pwr = s.pwr ∧
      (s.onChan q f).cal = s.cal ∧ (s.onChan q f).boot = s.boot ∧ (s.onChan q f).prg = s.prg ∧ (s.onChan q f).ct = s.ct ∧
      (s.onChan q f).cap = s.cap ∧ (s.onChan q f).hbm = s.hbm ∧ (s.onChan q f).engines = s.engines ∧
      (s.onChan q f).car = s.car ∧ (s.onChan q f).beams = s.beams ∧ (s.onChan q f).finishes = s.finishes ∧
      (s.onChan q f).powers = s.powers ∧ (s.onChan q f).streams = s.streams ∧ (s.onChan q f).dma = s.dma ∧
      (s.onChan q f).sent = s.sent ∧ (s.onChan q f).pending = s.pending :=
  ⟨rfl, rfl, rfl, rfl, rfl, rfl, rfl, rfl, rfl, rfl, rfl, rfl, rfl, rfl, rfl, rfl, rfl, rfl,
   rfl, rfl, rfl, rfl, rfl, rfl, rfl, rfl, rfl, rfl, rfl, rfl, rfl⟩

@[simp] theorem chan_onChan (s : State) (q : Nat) (f : ChanPath → ChanPath) : (s.onChan q f).chan q = f (s.chan q) := by
  simp [State.onChan, State.chan]

theorem chan_onChan_other (s : State) (q j : Nat) (f : ChanPath → ChanPath) (h : j ≠ q) : (s.onChan q f).chan j = s.chan j := by
  simp [State.onChan, State.chan, tget_tput_other _ _ _ _ _ h]

/-! ### A change of a beam set -/

@[simp] theorem onBeam_fields (s : State) (b : Nat) (f : BeamState → BeamState) :
    (s.onBeam b f).fuses = s.fuses ∧ (s.onBeam b f).set = s.set ∧ (s.onBeam b f).cycle = s.cycle ∧
      (s.onBeam b f).free = s.free ∧ (s.onBeam b f).tbs = s.tbs ∧ (s.onBeam b f).alarms = s.alarms ∧
      (s.onBeam b f).orb = s.orb ∧ (s.onBeam b f).ev = s.ev ∧ (s.onBeam b f).hps = s.hps ∧
      (s.onBeam b f).refsLost = s.refsLost ∧ (s.onBeam b f).mp = s.mp ∧ (s.onBeam b f).ing = s.ing ∧
      (s.onBeam b f).cmd = s.cmd ∧ (s.onBeam b f).cu = s.cu ∧ (s.onBeam b f).bus = s.bus ∧ (s.onBeam b f).pwr = s.pwr ∧
      (s.onBeam b f).cal = s.cal ∧ (s.onBeam b f).boot = s.boot ∧ (s.onBeam b f).prg = s.prg ∧ (s.onBeam b f).ch = s.ch ∧
      (s.onBeam b f).ct = s.ct ∧ (s.onBeam b f).cap = s.cap ∧ (s.onBeam b f).hbm = s.hbm ∧
      (s.onBeam b f).engines = s.engines ∧ (s.onBeam b f).car = s.car ∧ (s.onBeam b f).finishes = s.finishes ∧
      (s.onBeam b f).powers = s.powers ∧ (s.onBeam b f).streams = s.streams ∧ (s.onBeam b f).dma = s.dma ∧
      (s.onBeam b f).sent = s.sent ∧ (s.onBeam b f).pending = s.pending :=
  ⟨rfl, rfl, rfl, rfl, rfl, rfl, rfl, rfl, rfl, rfl, rfl, rfl, rfl, rfl, rfl, rfl, rfl, rfl,
   rfl, rfl, rfl, rfl, rfl, rfl, rfl, rfl, rfl, rfl, rfl, rfl, rfl⟩

@[simp] theorem beam_onBeam (s : State) (b : Nat) (f : BeamState → BeamState) : (s.onBeam b f).beam b = f (s.beam b) := by
  simp [State.onBeam, State.beam]

theorem beam_onBeam_other (s : State) (b j : Nat) (f : BeamState → BeamState) (h : j ≠ b) : (s.onBeam b f).beam j = s.beam j := by
  simp [State.onBeam, State.beam, tget_tput_other _ _ _ _ _ h]

/-! ### A change of the Sideband's buffers and of stage B -/

@[simp] theorem sideband_onSb (s : State) (f : Sideband → Sideband) : (s.onSb f).cmd.sideband = f s.cmd.sideband := rfl

@[simp] theorem fine_onFine (s : State) (q k : Nat) (f : FinePath → FinePath) : (s.onFine q k f).fine q k = f (s.fine q k) := by
  simp [State.onFine, State.fine]

theorem fine_onFine_other (s : State) (q k q' k' : Nat) (f : FinePath → FinePath) (h : q' * 256 + k' ≠ q * 256 + k) :
    (s.onFine q k f).fine q' k' = s.fine q' k' := by
  simp [State.onFine, State.fine, tget_tput_other _ _ _ _ _ h]

end Sys2Proof.Laws
end

