-- ==== Sys2Proof/Laws/Events.lean ====
section
/-! SUPPORT. Laws of the event tree: everything an event can do is within the event tree, it sets its sticky bit where the
variant has its source, and it clears none (16 R364 to R377). -/

namespace Sys2Proof.Laws

open Sys2Proof.Machine

theorem onlyEvents_refl (s : State) : OnlyEvents s s := rfl

theorem onlyEvents_trans {s t u : State} (h : OnlyEvents s t) (h' : OnlyEvents t u) : OnlyEvents s u := by
  unfold OnlyEvents at *; rw [h', h]

theorem recordFault_only (e : Nat) (f : FaultSpec) (s : State) : OnlyEvents s (recordFault e f s).1 := by
  unfold recordFault; repeat' split
  all_goals rfl

theorem queueRecord_only (e cause : Nat) (s : State) : OnlyEvents s (queueRecord e cause s).1 := by
  unfold queueRecord; split <;> rfl

theorem countOccurrence_only (e : Nat) (s : State) : OnlyEvents s (countOccurrence e s) := rfl

theorem recordFault_sticky (e : Nat) (f : FaultSpec) (s : State) : (recordFault e f s).1.ev.sticky = s.ev.sticky := by
  unfold recordFault; repeat' split
  all_goals rfl

theorem queueRecord_sticky (e cause : Nat) (s : State) : (queueRecord e cause s).1.ev.sticky = s.ev.sticky := by
  unfold queueRecord; split
  · dsimp only; split <;> rfl
  · rfl

@[simp] theorem stickyBit_countOccurrence_same {e : Nat} (he : e < 1024) (s : State) : (countOccurrence e s).stickyBit e = true := by
  simp [countOccurrence, State.stickyBit, he]

theorem stickyBit_countOccurrence {e k : Nat} {s : State} (h : s.stickyBit k = true) : (countOccurrence e s).stickyBit k = true := by
  simp only [State.stickyBit] at h; simp [countOccurrence, State.stickyBit, h]

/-- An occurrence stays within the event tree. -/
theorem occur_only (fuel : Nat) : ∀ (e cause : Nat) (f : Option FaultSpec) (s : State), OnlyEvents s (occur fuel e cause f s) := by
  induction fuel with
  | zero => intro e cause f s; rfl
  | succ n ih =>
    intro e cause f s
    simp only [occur]
    split
    · generalize hq : (if (!s.stickyBit e && (s.route e).getLsbD 2) = true then queueRecord e cause (countOccurrence e s)
        else (countOccurrence e s, false)) = q
      have h1 : OnlyEvents s q.1 := by
        rw [← hq]; split
        · exact onlyEvents_trans (countOccurrence_only e s) (queueRecord_only e cause _)
        · exact countOccurrence_only e s
      generalize hr : (if ((f.getD { loc := sourceLocation e, always := false }).always ||
        (!s.stickyBit e && (s.route e).getLsbD 3)) = true then
          recordFault e (f.getD { loc := sourceLocation e, always := false }) q.1 else (q.1, false)) = r
      have h2 : OnlyEvents s r.1 := by
        rw [← hr]; split
        · exact onlyEvents_trans h1 (recordFault_only e _ _)
        · exact h1
      obtain ⟨q, lost⟩ := q
      obtain ⟨r, full⟩ := r
      have h3 : OnlyEvents s (if lost = true then occur n 965 0 none r else r) := by
        split
        · exact onlyEvents_trans h2 (ih 965 0 none r)
        · exact h2
      dsimp only at h3 ⊢
      split
      · exact onlyEvents_trans h3 (ih 964 0 none _)
      · exact h3
    · rfl

/-- An occurrence clears no sticky bit. -/
theorem occur_sticky_mono (fuel : Nat) : ∀ (e cause : Nat) (f : Option FaultSpec) (s : State) (k : Nat),
    s.stickyBit k = true → (occur fuel e cause f s).stickyBit k = true := by
  induction fuel with
  | zero => intro e cause f s k h; exact h
  | succ n ih =>
    intro e cause f s k h
    simp only [occur]
    split
    · generalize hq : (if (!s.stickyBit e && (s.route e).getLsbD 2) = true then queueRecord e cause (countOccurrence e s)
        else (countOccurrence e s, false)) = q
      have h0 := stickyBit_countOccurrence (e := e) h
      have h1 : q.1.stickyBit k = true := by
        rw [← hq]; split
        · simpa [State.stickyBit, queueRecord_sticky] using h0
        · exact h0
      generalize hr : (if ((f.getD { loc := sourceLocation e, always := false }).always ||
        (!s.stickyBit e && (s.route e).getLsbD 3)) = true then
          recordFault e (f.getD { loc := sourceLocation e, always := false }) q.1 else (q.1, false)) = r
      have h2 : r.1.stickyBit k = true := by
        rw [← hr]; split
        · simpa [State.stickyBit, recordFault_sticky] using h1
        · exact h1
      obtain ⟨q, lost⟩ := q
      obtain ⟨r, full⟩ := r
      have h3 : (if lost = true then occur n 965 0 none r else r).stickyBit k = true := by
        split
        · exact ih 965 0 none r k h2
        · exact h2
      dsimp only at h3 ⊢
      split
      · exact ih 964 0 none _ k h3
      · exact h3
    · exact h

/-- An occurrence of an event that the variant has sets its sticky bit. -/
theorem occur_sticky {n e : Nat} (cause : Nat) (f : Option FaultSpec) {s : State} (he : e < 1024)
    (h : eventPresent s.fuses.variant e = true) : (occur (n + 1) e cause f s).stickyBit e = true := by
  simp only [occur, h, if_true]
  generalize hq : (if (!s.stickyBit e && (s.route e).getLsbD 2) = true then queueRecord e cause (countOccurrence e s)
    else (countOccurrence e s, false)) = q
  have h0 : (countOccurrence e s).stickyBit e = true := stickyBit_countOccurrence_same he s
  have h1 : q.1.stickyBit e = true := by
    rw [← hq]; split
    · simpa [State.stickyBit, queueRecord_sticky] using h0
    · exact h0
  generalize hr : (if ((f.getD { loc := sourceLocation e, always := false }).always ||
    (!s.stickyBit e && (s.route e).getLsbD 3)) = true then
      recordFault e (f.getD { loc := sourceLocation e, always := false }) q.1 else (q.1, false)) = r
  have h2 : r.1.stickyBit e = true := by
    rw [← hr]; split
    · simpa [State.stickyBit, recordFault_sticky] using h1
    · exact h1
  obtain ⟨q, lost⟩ := q
  obtain ⟨r, full⟩ := r
  have h3 : (if lost = true then occur n 965 0 none r else r).stickyBit e = true := by
    split
    · exact occur_sticky_mono n 965 0 none r e h2
    · exact h2
  dsimp only at h3 ⊢
  split
  · exact occur_sticky_mono n 964 0 none _ e h3
  · exact h3

theorem raise_only (e : Nat) (s : State) : OnlyEvents s (raise e s) := occur_only 6 e 0 none s
theorem raiseFault_only (e : Nat) (f : FaultSpec) (s : State) : OnlyEvents s (raiseFault e f s) := occur_only 6 e 0 (some f) s
theorem raiseDetail_only (e d : Nat) (s : State) : OnlyEvents s (raiseDetail e d s) := occur_only 6 e 0 _ s

theorem raise_sticky {e : Nat} {s : State} (he : e < 1024) (h : eventPresent s.fuses.variant e = true) :
    (raise e s).stickyBit e = true := occur_sticky 0 none he h
theorem raiseFault_sticky {e : Nat} (f : FaultSpec) {s : State} (he : e < 1024) (h : eventPresent s.fuses.variant e = true) :
    (raiseFault e f s).stickyBit e = true := occur_sticky 0 (some f) he h
theorem raiseDetail_sticky {e : Nat} (d : Nat) {s : State} (he : e < 1024) (h : eventPresent s.fuses.variant e = true) :
    (raiseDetail e d s).stickyBit e = true := occur_sticky 0 _ he h

/-- A change of a half-port followed by events changes that half-port and the event tree. -/
theorem onlyHp_of_onHp {h : Nat} {f : HalfPort → HalfPort} {s t : State} (h' : OnlyEvents (s.onHp h f) t) : OnlyHp h s t := by
  unfold OnlyEvents at h'
  rw [h']
  exact ⟨rfl, fun k hk => hp_onHp_other s h k f hk⟩

/-- Setting a bit of a half-port's cause changes that half-port and the event tree. -/
theorem setHpCause_only (h b : Nat) (s : State) : OnlyHp h s (setHpCause h b s) := by
  unfold setHpCause
  split
  · exact ⟨rfl, fun _ _ => rfl⟩
  · exact onlyHp_of_onHp (occur_only ..)

/-- A change of a DMA channel followed by events changes that channel and the event tree. -/
theorem onlyDch_of_onDch {c : Nat} {f : DmaChannel → DmaChannel} {s t : State} (h : OnlyEvents (s.onDch c f) t) : OnlyDch c s t := by
  unfold OnlyEvents at h
  rw [h]
  exact ⟨rfl, fun k hk => dch_onDch_other s c k f hk⟩

/-- A change of a base followed by events changes that base and the event tree. -/
theorem onlyTb_of_onTb {n : Nat} {f : TimeBase → TimeBase} {s t : State} (h : OnlyEvents (s.onTb n f) t) : OnlyTb n s t := by
  unfold OnlyEvents at h
  rw [h]
  exact ⟨rfl, fun k hk => tb_onTb_other s n k f hk⟩

end Sys2Proof.Laws
end

