-- ==== Sys2Proof/Laws/Memory.lean ====
section
/-! SUPPORT. Laws of the byte memories: read after write, what a write leaves alone, and the canonical form that every memory
operation keeps (07 R156; 15 R354; 19 R411). -/

namespace Sys2Proof.Laws

open Sys2Proof.Machine

/-- The canonical form, of the tail of a memory. -/
theorem memWf_tail {d : Byte} {e : Host.Cell} {m : List Host.Cell} (h : memWf d (e :: m) = true) : memWf d m = true := by
  cases m with
  | nil => rfl
  | cons e' m => simp [memWf] at h; exact h.2

theorem memWf_head {d : Byte} {a : Nat} {b : Byte} {m : List Host.Cell} (h : memWf d ((a, b) :: m) = true) : b ≠ d := by
  cases m with
  | nil => simpa [memWf] using h
  | cons e' m => simp [memWf] at h; exact h.1.1

/-- Every address of a canonical memory's tail lies above its head. -/
theorem memWf_above {d : Byte} {m : List Host.Cell} : ∀ {a : Nat} {b : Byte}, memWf d ((a, b) :: m) = true →
    ∀ e ∈ m, a < e.1 := by
  induction m with
  | nil => intro a b _ e he; cases he
  | cons x m ih =>
    intro a b h e he
    obtain ⟨a', b'⟩ := x
    have h1 : a < a' := by simp [memWf] at h; exact h.1.2
    cases he with
    | head => exact h1
    | tail _ he => exact Nat.lt_trans h1 (ih (memWf_tail h) e he)

/-- A canonical memory from a head below its tail. -/
theorem memWf_cons {d : Byte} {a : Nat} {b : Byte} {m : List Host.Cell} (hb : b ≠ d) (ha : ∀ e ∈ m, a < e.1)
    (h : memWf d m = true) : memWf d ((a, b) :: m) = true := by
  cases m with
  | nil => simpa [memWf] using hb
  | cons e m => simp [memWf, hb, ha e (by simp), h]

/-- What a memory lists after one byte has been written lies at its old addresses or at the byte's. -/
theorem memPut_mem {d : Byte} {a : Nat} {b : Byte} : ∀ {m : List Host.Cell} {e : Host.Cell}, e ∈ memPut d m a b →
    e.1 = a ∨ e ∈ m := by
  intro m
  induction m with
  | nil => intro e; simp only [memPut]; split <;> simp_all
  | cons x m ih =>
    intro e; simp only [memPut]
    split
    · split
      · intro h; exact .inr (.tail _ h)
      · intro h; cases h with
        | head => exact .inl rfl
        | tail _ h => exact .inr (.tail _ h)
    · split
      · split
        · exact .inr
        · intro h; cases h with
          | head => exact .inl rfl
          | tail _ h => exact .inr h
      · intro h; cases h with
        | head => exact .inr (.head _)
        | tail _ h => exact (ih h).imp id (.tail _)

/-- Writing a byte keeps the canonical form. -/
theorem memPut_wf {d : Byte} (a : Nat) (b : Byte) : ∀ {m : List Host.Cell}, memWf d m = true → memWf d (memPut d m a b) = true := by
  intro m
  induction m with
  | nil => intro _; simp only [memPut]; split <;> simp_all [memWf]
  | cons x m ih =>
    intro h
    have up := memWf_above h
    simp only [memPut]
    split
    · next he =>
      split
      · exact memWf_tail h
      · next hb => exact memWf_cons hb (he ▸ up) (memWf_tail h)
    · split
      · next hlt =>
        split
        · exact h
        · next hb =>
          refine memWf_cons hb (fun e he => ?_) h
          cases he with
          | head => exact hlt
          | tail _ he => exact Nat.lt_trans hlt (up e he)
      · next hne hlt =>
        refine memWf_cons (memWf_head h) (fun e he => ?_) (ih (memWf_tail h))
        rcases memPut_mem he with he | he
        · omega
        · exact up e he

/-- Writing a byte string keeps the canonical form. -/
theorem memWrite_wf {d : Byte} : ∀ (bs : Bytes) {m : List Host.Cell} (a : Nat), memWf d m = true →
    memWf d (memWrite d m a bs) = true := by
  intro bs
  induction bs with
  | nil => intro m a h; exact h
  | cons b bs ih => intro m a h; exact ih (a + 1) (memPut_wf a b h)

/-- Dropping entries keeps the canonical form. -/
theorem memWf_filter {d : Byte} (p : Host.Cell → Bool) : ∀ {m : List Host.Cell}, memWf d m = true →
    memWf d (m.filter p) = true := by
  intro m
  induction m with
  | nil => intro _; rfl
  | cons x m ih =>
    intro h
    simp only [List.filter]
    split
    · exact memWf_cons (memWf_head h) (fun e he => memWf_above h e ((List.mem_filter.mp he).1)) (ih (memWf_tail h))
    · exact ih (memWf_tail h)

/-- An address that a memory does not list reads as its default. -/
theorem memGet_absent {d : Byte} {a : Nat} : ∀ {m : List Host.Cell}, (∀ e ∈ m, e.1 ≠ a) → memGet d m a = d := by
  intro m
  induction m with
  | nil => intro _; rfl
  | cons x m ih =>
    intro h
    have h1 : x.1 ≠ a := h x (.head _)
    simpa [memGet, tget, h1] using ih fun e he => h e (.tail _ he)

/-- A byte written reads back. -/
theorem memGet_memPut_same {d : Byte} (a : Nat) (b : Byte) : ∀ {m : List Host.Cell}, memWf d m = true →
    memGet d (memPut d m a b) a = b := by
  intro m
  induction m with
  | nil => intro _; simp only [memPut]; split <;> simp_all [memGet, tget]
  | cons x m ih =>
    intro h
    have up := memWf_above h
    simp only [memPut]
    split
    · next he =>
      split
      · next hb => subst hb; exact memGet_absent fun e hm => by have := up e hm; omega
      · simp [memGet, tget]
    · split
      · next hlt =>
        split
        · next hb =>
          subst hb
          exact memGet_absent fun e hm => by
            cases hm with
            | head => simp; omega
            | tail _ hm => have := up e hm; omega
        · simp [memGet, tget]
      · next hne hlt => simpa [memGet, tget, hne] using ih (memWf_tail h)

/-- Writing a byte leaves every other address alone. -/
theorem memGet_memPut_other {d : Byte} (a : Nat) (b : Byte) {j : Nat} (hj : j ≠ a) : ∀ {m : List Host.Cell},
    memGet d (memPut d m a b) j = memGet d m j := by
  intro m
  have hj' : a ≠ j := Ne.symm hj
  induction m with
  | nil => simp only [memPut]; split <;> simp [memGet, tget, hj']
  | cons x m ih =>
    simp only [memPut]
    split
    · next he =>
      have : x.1 ≠ j := he ▸ hj'
      split <;> simp [memGet, tget, hj', this]
    · split
      · split <;> simp [memGet, tget, hj']
      · have ih' : tget (memPut d m a b) j d = tget m j d := ih
        simp [memGet, tget, ih']

/-- A byte string written leaves every address outside it alone. -/
theorem memGet_memWrite_other {d : Byte} {j : Nat} : ∀ (bs : Bytes) {m : List Host.Cell} (a : Nat),
    (j < a ∨ a + bs.length ≤ j) → memGet d (memWrite d m a bs) j = memGet d m j := by
  intro bs
  induction bs with
  | nil => intro m a _; rfl
  | cons b bs ih =>
    intro m a h
    simp only [List.length_cons] at h
    rw [memWrite, ih (a + 1) (by omega), memGet_memPut_other a b (by omega)]

/-- A byte string written reads back, byte by byte. -/
theorem memGet_memWrite_same {d : Byte} : ∀ (bs : Bytes) {m : List Host.Cell} (a i : Nat), memWf d m = true →
    (h : i < bs.length) → memGet d (memWrite d m a bs) (a + i) = bs[i] := by
  intro bs
  induction bs with
  | nil => intro m a i _ h; simp at h
  | cons b bs ih =>
    intro m a i hw h
    cases i with
    | zero => simpa [memWrite, memGet_memWrite_other bs (a + 1) (j := a) (by omega)] using memGet_memPut_same a b hw
    | succ i =>
      have := ih (a + 1) i (memPut_wf a b hw) (by simpa using h)
      simpa [memWrite, Nat.add_assoc, Nat.add_comm 1 i] using this

/-- A byte string written reads back whole. -/
theorem memRead_memWrite {d : Byte} (bs : Bytes) {m : List Host.Cell} (a : Nat) (h : memWf d m = true) :
    memRead d (memWrite d m a bs) a bs.length = bs := by
  apply List.ext_getElem
  · simp [memRead]
  · intro i h1 h2; simpa [memRead] using memGet_memWrite_same bs a i h h2

end Sys2Proof.Laws
end

