-- ==== Sys2Proof/Laws/Bus.lean ====
section
/-! SUPPORT. Laws of the bus matrix and of the HBM as a byte memory: everything that accepting a transaction can do, and what
a write of the HBM leaves (15 R351, R357, R360; 07 R156). -/

namespace Sys2Proof.Laws

open Sys2Proof.Machine

/-- `t` is `s` but for the event tree and the matrix's counters, read data, requests and outstanding transactions. -/
def OnlyBus (s t : State) : Prop :=
  t = { s with ev := t.ev
               bus := { s.bus with counters := t.bus.counters, readData := t.bus.readData
                                   outstanding := t.bus.outstanding, requests := t.bus.requests
                                   granted := t.bus.granted } }

theorem onlyBus_trans {s t u : State} (h : OnlyBus s t) (h' : OnlyBus t u) : OnlyBus s u := by
  unfold OnlyBus at *; rw [h', h]

theorem onlyBus_of_events {s t : State} (h : OnlyEvents s t) : OnlyBus s t := by
  unfold OnlyEvents at h; unfold OnlyBus; rw [h]

theorem busCount_only (m : Nat) (c : BusCtr) (s : State) : OnlyBus s (busCount m c s) := rfl

theorem setReadData_only (m : Nat) (ws : List Nat) (s : State) : OnlyBus s (setReadData m ws s) := rfl

theorem decodeError_only (m : Nat) (s : State) : OnlyBus s (decodeError m s) :=
  onlyBus_trans (busCount_only ..) (onlyBus_of_events (raise_only 913 _))

theorem busDenied_only (m : Nat) (s : State) : OnlyBus s (busDenied m s) :=
  onlyBus_trans (busCount_only ..) (onlyBus_of_events (raise_only 914 _))

theorem decodeError_sticky (m : Nat) {s : State} (h : eventPresent s.fuses.variant 913 = true) :
    (decodeError m s).stickyBit 913 = true := raise_sticky (by decide) h

theorem busDenied_sticky (m : Nat) {s : State} (h : eventPresent s.fuses.variant 914 = true) :
    (busDenied m s).stickyBit 914 = true := raise_sticky (by decide) h

/-- A request touches no memory and no register behind the matrix. -/
theorem busAccept_only (m : Nat) (w : Bool) (a : Nat) (data : List (Nat × Nat)) (stops : List Nat) (s : State) :
    OnlyBus s (busAccept m w a data stops s) := by
  unfold busAccept
  dsimp only
  split
  · split
    · exact onlyBus_trans (busCount_only ..) (decodeError_only ..)
    · exact onlyBus_trans (busCount_only ..) (onlyBus_trans (decodeError_only ..) (setReadData_only ..))
  · exact onlyBus_trans (busCount_only ..) (busDenied_only ..)
  · split <;> rfl
  · split
    · rfl
    · split <;> rfl

/-- A cut leaves nothing free of what it takes out. -/
theorem freeAt_cut_inside (l : List FreeRange) {a n j : Nat} (h : a ≤ j ∧ j < a + n) :
    freeAt (l.flatMap (·.cut a n)) j = none := by
  unfold freeAt
  rw [Option.map_eq_none_iff, List.find?_eq_none]
  intro r hr
  obtain ⟨x, _, hx⟩ := List.mem_flatMap.mp hr
  unfold FreeRange.cut at hx
  simp only [List.mem_append] at hx
  simp only [Bool.and_eq_true, decide_eq_true_eq, not_and]
  rcases hx with hx | hx <;> split at hx <;> simp at hx <;> subst hx <;> simp only <;> omega

/-- A cut leaves every other address as free as it was. -/
theorem freeAt_cut_other (l : List FreeRange) {a n j : Nat} (h : j < a ∨ a + n ≤ j) :
    freeAt (l.flatMap (·.cut a n)) j = freeAt l j := by
  unfold freeAt
  induction l with
  | nil => rfl
  | cons r l ih =>
    rw [List.flatMap_cons, List.find?_append]
    by_cases hr : r.first ≤ j ∧ j < r.past
    · rw [List.find?_cons_of_pos (by simp [hr])]
      have hx : ∃ x : FreeRange, (r.cut a n).find? (fun x => decide (x.first ≤ j) && decide (j < x.past)) = some x ∧
          x.draw = r.draw := by
        unfold FreeRange.cut
        rcases h with h | h
        · rw [if_pos (by omega), List.singleton_append, List.find?_cons_of_pos (by simp; omega)]
          exact ⟨_, rfl, rfl⟩
        · rw [if_pos (show max r.first (a + n) < r.past by omega)]
          by_cases hb : r.first < min r.past a
          · rw [if_pos hb, List.singleton_append, List.find?_cons_of_neg (by simp; omega),
              List.find?_cons_of_pos (by simp; omega)]
            exact ⟨_, rfl, rfl⟩
          · rw [if_neg hb, List.nil_append, List.find?_cons_of_pos (by simp; omega)]
            exact ⟨_, rfl, rfl⟩
      obtain ⟨x, hx, hd⟩ := hx
      rw [hx, Option.some_or, Option.map_some, Option.map_some, hd]
    · rw [List.find?_cons_of_neg (by simpa using hr)]
      have hn : (r.cut a n).find? (fun x => decide (x.first ≤ j) && decide (j < x.past)) = none := by
        rw [List.find?_eq_none]
        intro x hx
        unfold FreeRange.cut at hx
        simp only [List.mem_append] at hx
        simp only [Bool.and_eq_true, decide_eq_true_eq, not_and]
        rcases hx with hx | hx <;> split at hx <;> simp at hx <;> subst hx <;> simp only <;> omega
      rw [hn, Option.none_or]
      exact ih

/-- A read whose addresses hold no free value is a read of the listed bytes. -/
theorem hbmRead_of_none {s : State} {a n : Nat} (h : ∀ j, a ≤ j → j < a + n → freeAt s.hbm.undef j = none) :
    s.hbmRead a n = memRead 0 s.hbm.mem a n := by
  unfold State.hbmRead memRead
  apply List.map_congr_left
  intro i hi
  have hi := List.mem_range.mp hi
  rw [State.hbmGet, h (a + i) (by omega) (by omega)]
  rfl

/-- A write of the HBM reads back. -/
theorem hbmRead_hbmWrite {s : State} (a : Nat) (bs : Bytes) (h : memWf 0 s.hbm.mem = true) :
    (s.hbmWrite a bs).hbmRead a bs.length = bs := by
  rw [hbmRead_of_none fun j h1 h2 => freeAt_cut_inside _ ⟨h1, h2⟩]
  exact memRead_memWrite bs a h

/-- A write of the HBM leaves every byte outside it. -/
theorem hbmGet_hbmWrite_other {s : State} {a j : Nat} (bs : Bytes) (h : j < a ∨ a + bs.length ≤ j) :
    (s.hbmWrite a bs).hbmGet j = s.hbmGet j := by
  unfold State.hbmGet
  rw [show (s.hbmWrite a bs).hbm.undef = s.hbm.undef.flatMap (·.cut a bs.length) from rfl, freeAt_cut_other _ h]
  exact congrArg _ (memGet_memWrite_other bs a h)

/-- A write of the HBM keeps its memory in canonical form. -/
theorem hbmWrite_wf {s : State} (a : Nat) (bs : Bytes) (h : memWf 0 s.hbm.mem = true) :
    memWf 0 (s.hbmWrite a bs).hbm.mem = true := memWrite_wf bs a h

end Sys2Proof.Laws
end

