-- ==== Sys2Proof/Laws/Commands.lean ====
section
/-! SUPPORT. Laws of the command protocol: every Numin row goes through Table 13.4, a command that passes its steps is carried
out by its handler, and the reply it leaves is the one its session caches (13 R304 to R312). -/

namespace Sys2Proof.Laws

open Sys2Proof.Machine

/-- The handler of a Numin command, run after steps 1 to 10. -/
theorem exec_command (op : Op) (h : CmdHdr) (p : Bytes) (s : State) :
    exec (op.command h p) s = .next (numinCommand handle op h p s) := by cases op <;> rfl

/-- Every opcode of 13 Tables 13.6 to 13.9 is found by its code. -/
@[simp] theorem opOf_code (op : Op) : opOf op.code = some op := by cases op <;> rfl

/-- A packet received changes the front end's counters alone. -/
theorem heard_only (s : State) (h : CmdHdr) :
    s.heard h = { s with cmd := { s.cmd with counters := (s.heard h).cmd.counters } } := by
  unfold State.heard; dsimp only; split <;> rfl

@[simp] theorem heard_session (s : State) (h : CmdHdr) (i : Nat) : (s.heard h).session i = s.session i := by
  rw [heard_only]; rfl

@[simp] theorem heard_findSession (s : State) (h : CmdHdr) (id : Nat) (o : Origin) :
    (s.heard h).findSession id o = s.findSession id o := by rw [heard_only]; rfl

@[simp] theorem heard_condition (c : Ctx) (slot : Option Nat) (s : State) (h : CmdHdr) :
    conditionCheck c slot (s.heard h) = conditionCheck c slot s := by rw [heard_only]; rfl

/-- A command that passes steps 1 to 10 of Table 13.4 is carried out as its handler says. -/
theorem numin_admitted {s : State} {h : CmdHdr} {op : Op} {p : Bytes} {slot u : Nat} (ha : Admitted s h op p slot u) :
    numinCommand handle op h p s =
      carryOut { hdr := h, op := op, p := p, unit := u } (some slot)
        (handle { hdr := h, op := op, p := p, unit := u } (s.heard h)) (s.heard h) := by
  obtain ⟨hcar, hs, hq, ht, hid, hf, hc, hlo, hhi, hst, _, hl, hcond⟩ := ha
  have hx : (if h.retransmit = true then bumpAt h.origin.transport retransmitCtr (bumpCmd h.origin.transport .received s)
    else bumpCmd h.origin.transport .received s) = s.heard h := rfl
  have hd : 1 ≤ (h.seq.toNat + 2 ^ 32 - (s.session slot).high) % 2 ^ 32 ∧
    (h.seq.toNat + 2 ^ 32 - (s.session slot).high) % 2 ^ 32 ≤ 2 ^ 31 - 1 := ⟨hlo, hhi⟩
  simp only [numinCommand, hcar, Bool.not_true, Bool.false_eq_true, if_false, hs, hq, checkSession, hid, hx, heard_findSession, hf, heard_session, hc, hst]
  rw [if_pos hd]
  simp [interpret, ht, hl, hcond]

/-- The reply of a command whose handler rejects it. -/
theorem carryOut_reject (c : Ctx) (slot : Option Nat) (st : Status) (params : Bytes) (s : State) :
    carryOut c slot (.reject st params) s = settle slot false (c.reply st s.newestJsn params) s := rfl

/-! ### What sending a reply leaves -/

theorem onlyAnswered_rfl (s : State) : OnlyAnswered s s := ⟨rfl, fun _ => rfl⟩

theorem onlyAnswered_trans {s t u : State} (h : OnlyAnswered s t) (h' : OnlyAnswered t u) : OnlyAnswered s u := by
  refine ⟨?_, fun k => ?_⟩
  · rw [h'.1, h.1]
  · rw [h'.2 k, h.2 k]

/-- A frame sent changes the frames sent, what a near-end loopback returns, and the Management Port's counters. -/
theorem sendFrame_only (port : Nat) (f : Bytes) (s : State) : OnlyAnswered s (sendFrame port f s) := by
  have sent : OnlyAnswered s { s with sent := (port, f) :: s.sent } := ⟨rfl, fun _ => rfl⟩
  have loop : ∀ u : State, OnlyAnswered u (u.onHp port fun p => { p with looped := p.looped ++ [f] }) := by
    intro u
    refine ⟨rfl, fun k => ?_⟩
    by_cases hk : k = port
    · subst hk; simp
    · simp [hp_onHp_other _ _ _ _ hk]
  unfold sendFrame
  split
  · exact ⟨rfl, fun _ => rfl⟩
  · split
    · refine onlyAnswered_trans ?_ (loop _)
      split
      · exact sent
      · exact onlyAnswered_rfl s
    · exact sent

/-- A reply on its way changes counters, the Sideband's buffers, the frames sent and the event tree. -/
theorem transmitReply_only (r : Reply) (s : State) : OnlyAnswered s (transmitReply r s) := by
  unfold transmitReply
  split
  · split
    · exact sendFrame_only ..
    · exact onlyAnswered_rfl s
  · split
    · exact sendFrame_only ..
    · exact onlyAnswered_rfl s
  · exact ⟨rfl, fun _ => rfl⟩

theorem bumpAt_only (t : Transport) (i : Nat) (s : State) : OnlyAnswered s (bumpAt t i s) := ⟨rfl, fun _ => rfl⟩

theorem bumpCmd_only (t : Transport) (c : CmdCtr) (s : State) : OnlyAnswered s (bumpCmd t c s) := ⟨rfl, fun _ => rfl⟩

theorem sendReply_only (r : Reply) (s : State) : OnlyAnswered s (sendReply r s) :=
  onlyAnswered_trans (onlyAnswered_trans (bumpCmd_only ..) (bumpAt_only ..)) (transmitReply_only ..)

theorem heard_answered (s : State) (h : CmdHdr) : OnlyAnswered s (s.heard h) := by
  rw [heard_only]; exact ⟨rfl, fun _ => rfl⟩

theorem onlyAnswered_of_events {s t : State} (h : OnlyEvents s t) : OnlyAnswered s t := by
  unfold OnlyEvents at h; rw [h]; exact ⟨rfl, fun _ => rfl⟩

/-- A violation is counted and reported, and nothing else. -/
theorem violation_only (t : Transport) (c : CmdCtr) (s : State) : OnlyAnswered s (violation t c s) :=
  onlyAnswered_trans (bumpCmd_only ..) (onlyAnswered_of_events (raise_only 960 _))

theorem onlyAnswered_session {s t : State} (h : OnlyAnswered s t) (i : Nat) : t.session i = s.session i := by
  rw [h.1]; rfl

@[simp] theorem sendReply_session (r : Reply) (s : State) (i : Nat) : (sendReply r s).session i = s.session i :=
  onlyAnswered_session (sendReply_only r s) i

/-! ### The reply cache -/

/-- Making room keeps entries and adds none. -/
theorem makeRoom_cached {x : Session} {seq : Nat} (h : x.cached seq = none) : x.makeRoom.cached seq = none := by
  have drop : ∀ l : List CacheEntry, (l.find? fun e => e.seq == seq) = none →
      ((dropFirst (fun e => !e.pending) l).find? fun e => e.seq == seq) = none := by
    intro l
    induction l with
    | nil => intro h; exact h
    | cons e l ih =>
      intro h
      simp only [List.find?_cons] at h
      simp only [dropFirst]
      split at h
      · cases h
      · next he =>
        split
        · exact h
        · simp only [List.find?_cons, he]; exact ih h
  unfold Session.makeRoom
  split
  · exact h
  · split
    · exact h
    · exact drop _ h

/-- The reply consumed is the one the session caches for its SEQ, and H is that SEQ (13 R306, R307). -/
theorem consume_cached {x : Session} {seq : Nat} (b : Bool) (r : Reply) (h : x.cached seq = none) :
    (x.consume seq b r).high = seq ∧ (x.consume seq b r).cached seq = some { seq := seq, pending := b, reply := r } := by
  refine ⟨rfl, ?_⟩
  have h' := makeRoom_cached h
  simp only [Session.cached] at h'
  simp [Session.consume, Session.cached, List.find?_append, h']

/-- A reply settled in a session is its reply, and no other session changes. -/
theorem settle_replyIs {s : State} {c : Ctx} {slot : Nat} {st : Status} (jsn : Nat) (params : Bytes)
    (h : (s.session slot).cached c.hdr.seq.toNat = none) :
    ReplyIs c.hdr c.op slot st params (settle (some slot) (decide (st = .acceptedPending)) (c.reply st jsn params) s) := by
  have h2 := consume_cached (decide (st = .acceptedPending)) (c.reply st jsn params) (seq := c.hdr.seq.toNat) h
  refine ⟨?_, ?_⟩
  · simpa [settle, Ctx.reply] using h2.1
  · exact ⟨_, by simpa [settle, Ctx.reply] using h2.2, by simp, rfl, rfl, rfl, rfl, rfl⟩

theorem settle_session_other {s : State} {slot i : Nat} (b : Bool) (r : Reply) (h : i ≠ slot) :
    (settle (some slot) b r s).session i = s.session i := by
  simp [settle, session_onSession_other _ _ _ _ h]

/-! ### The journal and the command store -/

/-- `t` is `s` but for the journal, the control blocks of the Ringmasters and the event tree. -/
def Journaled (s t : State) : Prop :=
  t = { s with ev := t.ev, cu := t.cu, cmd := { s.cmd with journal := t.cmd.journal, nextJsn := t.cmd.nextJsn } }

theorem journaled_trans {s t u : State} (h : Journaled s t) (h' : Journaled t u) : Journaled s u := by
  unfold Journaled at *; rw [h', h]

theorem journaled_of_events {s t : State} (h : OnlyEvents s t) : Journaled s t := by
  unfold OnlyEvents at h; unfold Journaled; rw [h]

theorem writeEntry_only (k : EntryKind) (a b c d e f g i : Nat) (x : Bytes) (s : State) :
    Journaled s (writeEntry k a b c d e f g i x s) := by
  unfold writeEntry
  dsimp only
  split
  · refine journaled_trans ?_ (journaled_of_events (raise_only 962 _))
    rfl
  · rfl

theorem writeStore_only (r : StoreRecord) (s : State) : Journaled s (writeStore r s) := by
  rfl

theorem storeRoom_only (params : Bytes) (s : State) : Journaled s (storeRoom params s) := by
  unfold storeRoom
  dsimp only
  repeat' split
  all_goals rfl

theorem journalCommand_only (c : Ctx) (st : Status) (s : State) : Journaled s (journalCommand c st s) := by
  unfold journalCommand
  split
  · rfl
  · exact journaled_trans (storeRoom_only ..) (journaled_trans (writeEntry_only ..) (writeStore_only ..))

theorem commitEffect_only (c : Ctx) (jsn : Nat) (s : State) : Journaled s (commitEffect c jsn s) := by
  unfold commitEffect
  split <;> rfl

theorem sealDigest_only (c : Ctx) (jsn : Nat) (s : State) : Journaled s (sealDigest c jsn s) := by
  unfold sealDigest
  split <;> rfl

theorem journaled_session {s t : State} (h : Journaled s t) (i : Nat) : t.session i = s.session i := by
  unfold Journaled at h; rw [h]; rfl

theorem journaled_pending {s t : State} (h : Journaled s t) : t.cmd.pending = s.cmd.pending := by
  unfold Journaled at h; rw [h]

/-- A reply settled leaves the work under way. -/
theorem settle_pending (slot : Option Nat) (b : Bool) (r : Reply) (s : State) :
    (settle slot b r s).cmd.pending = s.cmd.pending := by
  unfold settle
  dsimp only
  rw [(sendReply_only ..).1]
  split <;> rfl

/-- A command that completes, but HELLO and GOODBYE, leaves its reply in its session where its effect leaves the session be:
OK, with the parameters that its effect answers (13 R304, R306). -/
theorem carryOut_done {s : State} {c : Ctx} {slot : Nat} {act : State → State × Bytes}
    (hop : c.op ≠ .goodbye ∧ c.op ≠ .hello) (hc : (s.session slot).cached c.hdr.seq.toNat = none)
    (hact : ∀ x : State, (act x).1.session slot = x.session slot) :
    Replied c.hdr c.op slot (act (journalCommand c .ok s)).2 (carryOut c (some slot) (.done act) s) := by
  have hclose : ∀ (r : Reply) (x : State), closeOrOpen c (some slot) r x = x := by
    intro r x
    unfold closeOrOpen
    split
    · simp_all
    · simp_all
    · rfl
  have h1 : ((commitEffect c (c.jsn s) (act (journalCommand c .ok s)).1).session slot).cached c.hdr.seq.toNat = none := by
    rw [journaled_session (commitEffect_only ..), hact, journaled_session (journalCommand_only ..), hc]
  have h2 := settle_replyIs (st := .ok) (c.jsn s) (act (journalCommand c .ok s)).2 h1
  have h3 := journaled_session (sealDigest_only c (c.jsn s) (settle (some slot) false
    (c.reply .ok (c.jsn s) (act (journalCommand c .ok s)).2) (commitEffect c (c.jsn s) (act (journalCommand c .ok s)).1))) slot
  unfold Replied ReplyIs at *
  simp only [carryOut, hclose, h3]
  simpa using h2

/-- A command whose work goes on leaves ACCEPTED_PENDING in its session and its work under way, where its immediate effect
leaves both be (13 R311). -/
theorem carryOut_later {s : State} {c : Ctx} {slot : Nat} {w : PendingWork} {act : State → State}
    (hc : (s.session slot).cached c.hdr.seq.toNat = none)
    (hact : ∀ x : State, (act x).session slot = x.session slot ∧ (act x).cmd.pending = x.cmd.pending) :
    Started c.hdr c.op slot w (carryOut c (some slot) (.later w act) s) := by
  generalize hz : addPending (c.pendingOf w) (journalCommand c .acceptedPending s) = y
  have hs : y.session slot = s.session slot := by
    rw [← hz]; exact journaled_session (journalCommand_only c .acceptedPending s) slot
  have hq : c.pendingOf w ∈ y.cmd.pending := by rw [← hz]; simp [addPending]
  have h1 : ((commitEffect c (c.jsn s) (act y)).session slot).cached c.hdr.seq.toNat = none := by
    rw [journaled_session (commitEffect_only ..), (hact y).1, hs, hc]
  have h2 := settle_replyIs (st := .acceptedPending) (c.jsn s) [] h1
  generalize he : settle (some slot) (decide (Status.acceptedPending = .acceptedPending)) (c.reply .acceptedPending (c.jsn s) [])
    (commitEffect c (c.jsn s) (act y)) = z at h2
  have h5 : carryOut c (some slot) (.later w act) s = sealDigest c (c.jsn s) z := by rw [← he, ← hz]; rfl
  have h7 : (sealDigest c (c.jsn s) z).cmd.pending = y.cmd.pending := by
    rw [journaled_pending (sealDigest_only ..), ← he, settle_pending, journaled_pending (commitEffect_only ..), (hact y).2]
  rw [h5]
  refine ⟨?_, c.pendingOf w, by rw [h7]; exact hq, rfl, rfl, rfl, rfl⟩
  unfold ReplyIs at h2 ⊢
  rw [journaled_session (sealDigest_only ..)]
  exact h2

end Sys2Proof.Laws
end

