-- ==== Sys2Proof/Laws/Engine.lean ====
section
/-! SUPPORT. Laws of the sequencer: what the end of an instruction changes, and what an instruction that writes a register
does (08 R195, R200). -/

namespace Sys2Proof.Laws

open Sys2Proof.Machine

theorem onlyEngine_onEng (s : State) (e : Nat) (f : Engine → Engine) : OnlyEngine e s (s.onEng e f) :=
  ⟨rfl, fun k h => eng_onEng_other s e k f h⟩

theorem sequenced_refl (x : Engine) : Sequenced x x := rfl

theorem sequenced_trans {x y z : Engine} (h : Sequenced x y) (h' : Sequenced y z) : Sequenced x z := by
  unfold Sequenced at *; rw [h', h]

/-- The end of a REPEAT body changes the sequencing alone. -/
theorem loopEnd_sequenced (g : Engine) (level last : Nat) : Sequenced g (g.loopEnd level last).1 := by
  unfold Engine.loopEnd
  split
  · split
    · dsimp only; split <;> rfl
    · rfl
  · rfl

/-- The end of an instruction changes the sequencing alone. -/
theorem after_sequenced (g : Engine) (last : Nat) : Sequenced g (g.after last) := by
  unfold Engine.after
  dsimp only
  split
  · split <;> rfl
  · generalize hx : ({ g with pc := (last + 1) % 4096 } : Engine) = x
    have h1 : Sequenced g x := by rw [← hx]; rfl
    have h2 := loopEnd_sequenced x 1 last
    split
    · exact sequenced_trans h1 h2
    · exact sequenced_trans h1 (sequenced_trans h2 (loopEnd_sequenced _ 0 last))

theorem branch_sequenced (g : Engine) (taken : Bool) (target : Nat) : Sequenced g (g.branch taken target) := rfl

theorem repeat_sequenced (g : Engine) (level len count : Nat) : Sequenced g (g.repeat' level len count) := by
  unfold Engine.repeat'
  split
  · exact sequenced_trans (y := { g with lc := tput g.lc level 0 }) rfl (after_sequenced ..)
  · rfl

/-- Everything that an instruction which neither branches nor waits can do. -/
theorem seqStep_eng {s : State} {e : Nat} (f : Engine → Engine) (h : s.seqReady e = true) :
    OnlyEngine e s (seqStep e f s) ∧ Sequenced (f (s.eng e)) ((seqStep e f s).eng e) := by
  simp only [seqStep, h, if_true]
  refine ⟨onlyEngine_onEng .., ?_⟩
  rw [eng_onEng]
  exact sequenced_trans (y := { f (s.eng e) with syncPoint := false }) rfl (after_sequenced ..)

/-- Everything that a control instruction can do. -/
theorem seqControl_eng {s : State} {e : Nat} (f : Engine → Engine) (h : s.seqReady e = true) :
    OnlyEngine e s (seqControl e f s) ∧ Sequenced (f (s.eng e)) ((seqControl e f s).eng e) := by
  simp only [seqControl, h, if_true]
  refine ⟨onlyEngine_onEng .., ?_⟩
  rw [eng_onEng]
  rfl

/-- An engine that cannot execute executes nothing. -/
theorem seqStep_off {s : State} {e : Nat} (f : Engine → Engine) (h : s.seqReady e = false) : seqStep e f s = s := by
  simp [seqStep, h]

theorem seqControl_off {s : State} {e : Nat} (f : Engine → Engine) (h : s.seqReady e = false) : seqControl e f s = s := by
  simp [seqControl, h]

/-! ### General registers -/

theorem reg_setReg (g : Engine) (d v : Nat) : (g.setReg d v).reg d = v % 2 ^ 24 := by simp [Engine.setReg, Engine.reg]

theorem reg_setReg_other (g : Engine) (d v r : Nat) (h : r ≠ d) : (g.setReg d v).reg r = g.reg r := by
  simp [Engine.setReg, Engine.reg, tget_tput_other _ _ _ _ _ h]

theorem sequenced_g {x y : Engine} (h : Sequenced x y) : y.g = x.g := by unfold Sequenced at h; rw [h]

theorem sequenced_reg {x y : Engine} (h : Sequenced x y) (r : Nat) : y.reg r = x.reg r := by
  simp [Engine.reg, sequenced_g h]

/-- An instruction that writes one general register. -/
theorem setsReg_seqStep {s : State} {e : Nat} (d : Nat) (v : Engine → Nat) (h : s.seqReady e = true) :
    SetsReg e d (BitVec.ofNat 24 (v (s.eng e))) s (seqStep e (fun g => g.setReg d (v g)) s) := by
  obtain ⟨h1, h2⟩ := seqStep_eng (fun g => g.setReg d (v g)) h
  refine ⟨?_, ?_, h1, ?_⟩
  · simp only [State.gval]
    rw [sequenced_reg h2, reg_setReg]
    apply BitVec.eq_of_toNat_eq
    simp
  · intro r hr
    simp only [State.gval]
    rw [sequenced_reg h2, reg_setReg_other _ _ _ _ hr]
  · unfold Sequenced at h2 ⊢
    rw [h2]
    rfl

end Sys2Proof.Laws
end

