-- ==== Sys2Proof/Laws/Keeps.lean ====
section
/-! SUPPORT. What every step keeps, as a relation that composes: the fuses, the size of the flash and the canonical form of
the byte memories. -/

namespace Sys2Proof.Laws

open Sys2Proof.Machine

/-- `t` keeps what every step keeps of `s`. -/
def Keeps (s t : State) : Prop := SameDevice s t ∧ (MemoriesOk s → MemoriesOk t)

theorem keeps_refl (s : State) : Keeps s s := ⟨⟨rfl, rfl⟩, id⟩

theorem keeps_trans {s t u : State} (h : Keeps s t) (h' : Keeps t u) : Keeps s u :=
  ⟨⟨h'.1.1.trans h.1.1, h'.1.2.trans h.1.2⟩, h'.2 ∘ h.2⟩

/-- A change that leaves the fuses, the flash and every byte memory be. -/
theorem keeps_of_same {s t : State} (hf : t.fuses = s.fuses) (hz : t.boot.flashSize = s.boot.flashSize)
    (hm : t.hbm.mem = s.hbm.mem) (hb : t.boot.flash = s.boot.flash) (hr : t.bus.retained = s.bus.retained)
    (hs : t.bus.sram = s.bus.sram) (ha : t.bus.localA = s.bus.localA) (hl : t.bus.localB = s.bus.localB) : Keeps s t := by
  refine ⟨⟨hf, hz⟩, fun h => ?_⟩
  unfold MemoriesOk at *
  rw [hm, hb, hr, hs, ha, hl]
  exact h

theorem keeps_of_events {s t : State} (h : OnlyEvents s t) : Keeps s t := by
  unfold OnlyEvents at h; rw [h]; exact keeps_of_same rfl rfl rfl rfl rfl rfl rfl rfl

theorem keeps_of_answered {s t : State} (h : OnlyAnswered s t) : Keeps s t := by
  rw [h.1]; exact keeps_of_same rfl rfl rfl rfl rfl rfl rfl rfl

theorem keeps_of_journaled {s t : State} (h : Journaled s t) : Keeps s t := by
  unfold Journaled at h; rw [h]; exact keeps_of_same rfl rfl rfl rfl rfl rfl rfl rfl

theorem keeps_of_bus {s t : State} (h : OnlyBus s t) : Keeps s t := by
  unfold OnlyBus at h; rw [h]; exact keeps_of_same rfl rfl rfl rfl rfl rfl rfl rfl

theorem keeps_of_hp {h : Nat} {s t : State} (h' : OnlyHp h s t) : Keeps s t := by
  obtain ⟨h', _⟩ := h'; rw [h']; exact keeps_of_same rfl rfl rfl rfl rfl rfl rfl rfl

theorem keeps_of_dch {c : Nat} {s t : State} (h : OnlyDch c s t) : Keeps s t := by
  obtain ⟨h, _⟩ := h; rw [h]; exact keeps_of_same rfl rfl rfl rfl rfl rfl rfl rfl

theorem keeps_of_tb {n : Nat} {s t : State} (h : OnlyTb n s t) : Keeps s t := by
  obtain ⟨h, _⟩ := h; rw [h]; exact keeps_of_same rfl rfl rfl rfl rfl rfl rfl rfl

theorem keeps_of_engine {e : Nat} {s t : State} (h : OnlyEngine e s t) : Keeps s t := by
  obtain ⟨h, _⟩ := h; rw [h]; exact keeps_of_same rfl rfl rfl rfl rfl rfl rfl rfl

/-- Folding a step that keeps it. -/
theorem keeps_foldl {α : Type} {f : State → α → State} (h : ∀ s x, Keeps s (f s x)) : ∀ (l : List α) (s : State),
    Keeps s (l.foldl f s) := by
  intro l
  induction l with
  | nil => exact keeps_refl
  | cons x l ih => intro s; exact keeps_trans (h s x) (ih _)

/-- A write of the HBM keeps it. -/
theorem keeps_hbmWrite (a : Nat) (bs : Bytes) (s : State) : Keeps s (s.hbmWrite a bs) :=
  ⟨⟨rfl, rfl⟩, fun h => ⟨hbmWrite_wf a bs h.1, h.2⟩⟩

/-- An arithmetic or addressing instruction keeps it. -/
theorem keeps_seqStep (e : Nat) (f : Engine → Engine) (s : State) : Keeps s (seqStep e f s) := by
  unfold seqStep; split
  · exact keeps_of_same rfl rfl rfl rfl rfl rfl rfl rfl
  · exact keeps_refl s

/-- A control instruction keeps it. -/
theorem keeps_seqControl (e : Nat) (f : Engine → Engine) (s : State) : Keeps s (seqControl e f s) := by
  unfold seqControl; split
  · exact keeps_of_same rfl rfl rfl rfl rfl rfl rfl rfl
  · exact keeps_refl s

/-- A reply settled keeps it. -/
theorem keeps_settle (slot : Option Nat) (b : Bool) (r : Reply) (s : State) : Keeps s (settle slot b r s) := by
  unfold settle
  dsimp only
  split
  · refine keeps_trans ?_ (keeps_of_answered (sendReply_only _ _))
    exact keeps_of_same rfl rfl rfl rfl rfl rfl rfl rfl
  · exact keeps_of_answered (sendReply_only ..)

end Sys2Proof.Laws
end

