-- ==== Sys2Proof/WellFormed.lean ====
section
/-! DEFINITION. Well-formed commands: every operand within the range that its rule gives the field (08 Table 8.8; 00 Table 0.1;
13 R303; 15 R350; 18 R402; 17 R393). -/

namespace Sys2Proof

/-- An engine number (00 Table 0.1). -/
def engineOk (e : Nat) : Bool := decide (e < 512)
/-- A general register g0 to g15 (08 Table 8.7). -/
def regOk (r : Nat) : Bool := decide (r < 16)
/-- An address register, or feed ring, 0 to 7 (08 Table 8.7). -/
def addrOk (k : Nat) : Bool := decide (k < 8)
/-- A scratchpad slot (08 R190). -/
def slotOk (i : Nat) : Bool := decide (i < 42)
/-- A 12-bit field: a programme store address, an unsigned IMM or N (08 Table 8.8). -/
def codeOk (a : Nat) : Bool := decide (a < 4096)
/-- A signed field of `w` bits. -/
def signedOk (w : Nat) (i : Int) : Bool := decide (-(2 ^ (w - 1) : Int) ≤ i) && decide (i < 2 ^ (w - 1))
/-- The bit of a 32-bit word whose parity fails. -/
def bitOk (b : Option Nat) : Bool := match b with | some k => decide (k < 32) | none => true
/-- A DMA channel (12 R280). -/
def channelOk (c : Nat) : Bool := decide (c < 64)
/-- A half-port (00 Table 0.1). -/
def portOk (h : Nat) : Bool := decide (h < 128)
/-- A lane (00 Table 0.1). -/
def laneOk (n : Nat) : Bool := decide (n < 512)
/-- A Ringmaster: 0 A, 1 B (14 R327). -/
def unitOk (u : Nat) : Bool := decide (u ≤ 1)
/-- A bus master (15 Table 15.1). -/
def masterOk (m : Nat) : Bool := decide (m ≤ 5)
/-- A path (04 Table 4.3). -/
def pathOk (q : Nat) : Bool := decide (q < 2048)
/-- An HBM stack (00 Table 0.1). -/
def stackOk (h : Nat) : Bool := decide (h < 4)
/-- A time base, or a Calliope channel, 0 to 3. -/
def baseOk (n : Nat) : Bool := decide (n < 4)
/-- A 32-bit word (00 R6). -/
def wordOk32 (v : Nat) : Bool := decide (v < 2 ^ 32)
/-- Command parameters: at most 8,960 bytes (13 Table 13.2). -/
def paramsOk (p : Bytes) : Bool := decide (p.length ≤ 8960)

/-- A place within the ranges of its tags (00 Table 0.6, R8). -/
def Location.wf (l : Location) : Bool :=
  match l with
  | .package | .die => true
  | .cluster c => decide (c < 32)
  | .engine e | .array e => engineOk e
  | .cell e m => engineOk e && decide (m < 256)
  | .cellBit e m b => engineOk e && decide (m < 256) && decide (b < 32)
  | .block t n b => bitOk b && (match t with
    | .H => stackOk n | .L => laneOk n | .N => unitOk n | .K => decide (n < 32)
    | .S | .O | .I | .J => engineOk n)

/-- Whether a command's operands lie in their ranges. -/
def Instr.wf (i : Instr) : Bool :=
  match i with
  | .hello _ p => paramsOk p
  | .identify _ p => paramsOk p
  | .goodbye _ p => paramsOk p
  | .echo _ p => paramsOk p
  | .getSetting _ p => paramsOk p
  | .setSetting _ p => paramsOk p
  | .commitPreset _ p => paramsOk p
  | .revertSetting _ p => paramsOk p
  | .listSettings _ p => paramsOk p
  | .getState _ p => paramsOk p
  | .enterPowerState _ p => paramsOk p
  | .resume _ p => paramsOk p
  | .loadProgramme _ p => paramsOk p
  | .loadProgrammeSegment _ p => paramsOk p
  | .validateProgramme _ p => paramsOk p
  | .armProgramme _ p => paramsOk p
  | .haltProgramme _ p => paramsOk p
  | .haltProgrammeAtOnce _ p => paramsOk p
  | .tbConfigure _ p => paramsOk p
  | .tbStep _ p => paramsOk p
  | .tbRestep _ p => paramsOk p
  | .tbStatus _ p => paramsOk p
  | .tbAlarm _ p => paramsOk p
  | .tbAlarmDisarm _ p => paramsOk p
  | .portConfigure _ p => paramsOk p
  | .portStatus _ p => paramsOk p
  | .laneLoopback _ p => paramsOk p
  | .laneEye _ p => paramsOk p
  | .laneEyeScanComplete n _ _ _ => laneOk n
  | .dmaSubmit _ p => paramsOk p
  | .dmaLink _ p => paramsOk p
  | .dmaStop _ p => paramsOk p
  | .hbmStatus _ p => paramsOk p
  | .hbmThaw _ p => paramsOk p
  | .captureFreeze _ p => paramsOk p
  | .captureRelease _ p => paramsOk p
  | .captureDump _ p => paramsOk p
  | .eventsRead _ p => paramsOk p
  | .eventsClear _ p => paramsOk p
  | .faultRecordRead _ p => paramsOk p
  | .eventRoute _ p => paramsOk p
  | .journalRead _ p => paramsOk p
  | .journalMark _ p => paramsOk p
  | .cuStatus _ p => paramsOk p
  | .cuSwitchover _ p => paramsOk p
  | .cuHealth _ p => paramsOk p
  | .cuResync _ p => paramsOk p
  | .calConfigure _ p => paramsOk p
  | .calQueue _ p => paramsOk p
  | .calStrobe _ p => paramsOk p
  | .peek _ p => paramsOk p
  | .poke _ p => paramsOk p
  | .selftest _ p => paramsOk p
  | .imageWrite _ p => paramsOk p
  | .imageVerify _ p => paramsOk p
  | .imageActivate _ p => paramsOk p
  | .commandPacketArrival _ _ => true
  | .pendingCommandComplete _ _ r => match r.location with | some l => l.wf | none => true
  | .sessionTimeout slot => decide (slot < 8)
  | .writeEnd _ _ => true
  | .sbBlockWriteAppend _ _ => true
  | .sbReadStatus => true
  | .sbBlockRead _ => true
  | .sbDiscard _ => true
  | .sbWakeAddressMatch addr _ => decide (addr < 128)
  | .wakeNLow => true
  | .porstNAssert => true
  | .boot _ => true
  | .bootStepComplete _ _ => true
  | .tapResetInstructionLoad _ => true
  | .tapResetInstructionLeave _ _ => true
  | .tapReset _ => true
  | .bootStatusReleaseA m => masterOk m
  | .bootStatusReleaseB m => masterOk m
  | .ethFrameReceive h _ _ => portOk h
  | .ingestFrameDrain _ => true
  | .pathSilent path _ => pathOk path
  | .mpFrameReceive _ => true
  | .mpLinkChange _ _ => true
  | .ptpSync h _ _ _ => (decide (h < 128) || h == 255)
  | .ptpFollowUp h _ _ _ => (decide (h < 128) || h == 255)
  | .ptpAnnounce h _ _ _ => (decide (h < 128) || h == 255)
  | .ptpDelayResp h _ _ _ => (decide (h < 128) || h == 255)
  | .delayReqSend n _ => baseOk n
  | .tbSyncTimeout n => baseOk n
  | .ppsInEdge _ _ => true
  | .ppsInLost _ => true
  | .evTbRefMissing => true
  | .ref10mReturn _ => true
  | .alarmFire _ => true
  | .orbitDeadlineClose _ => true
  | .orbitStamp _ => true
  | .ppsOutPulse n _ => baseOk n
  | .ppsOutPulseEnd n _ => baseOk n
  | .frameDeadlineClose _ => true
  | .hpRetryTimer h => portOk h
  | .hpTrainingComplete h _ _ => portOk h
  | .hpTrainingTimeout h => portOk h
  | .laneSignalLoss n => laneOk n
  | .laneLockLoss h _ _ => portOk h
  | .eyeFail n => laneOk n
  | .laneReferenceLost k => decide (k < 8)
  | .laneReferenceReturn k => decide (k < 8)
  | .electricalIdleEnter h => portOk h
  | .fastExit h _ _ => portOk h
  | .idleKeepaliveExit h _ => portOk h
  | .idleExitFail h _ => portOk h
  | .trainA h _ lane => portOk h && decide (lane < 4)
  | .trainB h _ => portOk h
  | .mwLinkBlock h _ => portOk h
  | .mwLinkBlockSend h _ => portOk h
  | .mwFrameSend h => portOk h
  | .mwDataFrame h _ _ => portOk h
  | .mwCloseFrame h _ => portOk h
  | .mwControlError h => portOk h
  | .mwReplayTimeout h => portOk h
  | .evMwPeerLost h => portOk h
  | .slicerBlock path => pathOk path
  | .fineFilterbankBlock path slice => pathOk path && decide (slice < 256)
  | .ctRunWrite _ _ => true
  | .ctReadBlock _ _ => true
  | .actBoundary => true
  | .programmeSwap => true
  | .programmeRetired => true
  | .captureTrigEdge => true
  | .captureRunWrite _ => true
  | .hbmUncorrectableError _ _ _ _ _ => true
  | .hbmCorrectedError _ _ => true
  | .hbmScrub found _ _ => decide (found ≤ 3)
  | .hbmRefresh stack pc bank => decide (stack < 4) && decide (pc < 32) && decide (bank < 48)
  | .hbmRetime stack => stackOk stack
  | .evHbmTempWarn stack _ => stackOk stack
  | .carouselBlockDeliver bad => bad.all fun x => decide (x.2.2 < 32)
  | .nop e => engineOk e
  | .add e d a b => engineOk e && regOk d && regOk a && regOk b
  | .sub e d a b => engineOk e && regOk d && regOk a && regOk b
  | .and e d a b => engineOk e && regOk d && regOk a && regOk b
  | .or e d a b => engineOk e && regOk d && regOk a && regOk b
  | .xor e d a b => engineOk e && regOk d && regOk a && regOk b
  | .shl e d a b => engineOk e && regOk d && regOk a && regOk b
  | .shr e d a b => engineOk e && regOk d && regOk a && regOk b
  | .sra e d a b => engineOk e && regOk d && regOk a && regOk b
  | .slt e d a b => engineOk e && regOk d && regOk a && regOk b
  | .addi e d a imm => engineOk e && regOk d && regOk a && signedOk 18 imm
  | .lui e d imm => engineOk e && regOk d && codeOk imm
  | .mul2 e d a b c => engineOk e && regOk d && d % 2 == 0 && regOk a && regOk b && regOk c
  | .mulw e d a b => engineOk e && regOk d && d % 2 == 0 && regOk a && regOk b
  | .movag e k b => engineOk e && addrOk k && regOk b
  | .movga e d k => engineOk e && regOk d && addrOk k
  | .adda e k imm => engineOk e && addrOk k && signedOk 16 imm
  | .setc e k b c => engineOk e && addrOk k && regOk b && regOk c
  | .ldc e d k imm => engineOk e && regOk d && addrOk k && codeOk imm
  | .stc e k b imm => engineOk e && addrOk k && regOk b && codeOk imm
  | .rdlc e d l => engineOk e && regOk d && decide (l < 2)
  | .br e target => engineOk e && codeOk target
  | .bz e r target => engineOk e && regOk r && codeOk target
  | .bnz e r target => engineOk e && regOk r && codeOk target
  | .bltz e r target => engineOk e && regOk r && codeOk target
  | .bgez e r target => engineOk e && regOk r && codeOk target
  | .jal e target => engineOk e && codeOk target
  | .jr e r => engineOk e && regOk r
  | .repeatLoop e l len count => engineOk e && decide (l < 2) && decide (len < 64) && decide (count < 65536)
  | .repeatLoopG e l len r => engineOk e && decide (l < 2) && decide (len < 64) && regOk r
  | .waitf e k n => engineOk e && addrOk k && codeOk n
  | .freef e k n => engineOk e && addrOk k && codeOk n
  | .waito e => engineOk e
  | .psync e => engineOk e
  | .tacq e slot gt gc _ => engineOk e && slotOk slot && regOk gt && regOk gc
  | .trel e slot bad => engineOk e && slotOk slot && bitOk bad
  | .tclr e slot => engineOk e && slotOk slot
  | .pass e kr kc slot gs _ _ _ => engineOk e && addrOk kr && addrOk kc && slotOk slot && regOk gs
  | .bload e k _ bad => engineOk e && addrOk k && bitOk bad
  | .bpass e kc slot _ => engineOk e && addrOk kc && slotOk slot
  | .dkick e ch => engineOk e && channelOk ch
  | .engineStallResume e => engineOk e
  | .engStallWarn e _ => engineOk e
  | .passStreamStart e bad => engineOk e && bad.all fun x => decide (x.2 < 32)
  | .passWriteBack e bad => engineOk e && bitOk bad
  | .bpassWriteBack e bad => engineOk e && bitOk bad
  | .passReplay e bad => engineOk e && bad.all fun x => decide (x.2 < 32)
  | .engineStop e => engineOk e
  | .storeRefetch e _ _ b => engineOk e && decide (b < 32)
  | .dmaBurstStart _ _ _ bad _ => bitOk bad
  | .dmaBurstComplete _ => true
  | .slotWaitLong c _ => channelOk c
  | .linkNew c _ => channelOk c
  | .dmaCauseW1c c _ => channelOk c
  | .stickyW1c w value => decide (w < 32) && wordOk32 value
  | .counterClear value => wordOk32 value
  | .engineCauseW1c e _ => engineOk e
  | .busCounterClear m k v => masterOk m && masterOk k && wordOk32 v
  | .wdogKick m u value => masterOk m && unitOk u && wordOk32 value
  | .commitJsnLo m v => masterOk m && wordOk32 v
  | .release m => masterOk m
  | .calliopeStrobeRegister value => wordOk32 value
  | .queueApertureWrite n word => baseOk n && wordOk32 word
  | .sysctlRemapWrite m v => masterOk m && wordOk32 v
  | .registerWrite m _ v => masterOk m && wordOk32 v
  | .busTransaction m _ _ _ _ _ => masterOk m
  | .evBusTimeout m => masterOk m
  | .sliceModeSwitch => true
  | .eventPacketSend _ => true
  | .watchdogExpiry u => unitOk u
  | .heartbeatPathLost u path => unitOk u && decide (path ≤ 1)
  | .heartbeatPathBack u path => unitOk u && decide (path ≤ 1)
  | .epochCopy _ => true
  | .epochCommit u _ => unitOk u
  | .batonClaim u => unitOk u
  | .shadowExecute u _ => unitOk u
  | .selftestCycleStep u _ => unitOk u
  | .unitRestart u _ => unitOk u
  | .handshakeBlockAnswer _ => true
  | .handshakeBudgetExpiry => true
  | .wakeStepComplete _ => true
  | .wakeStepTimeout _ => true
  | .supplyMonitorSample _ => true
  | .shedStageEnter k => decide (1 ≤ k) && decide (k ≤ 5)
  | .shedStageExit k => decide (1 ≤ k) && decide (k ≤ 5)
  | .tjSensorRead _ => true
  | .xtalLost => true
  | .xtalRetry => true
  | .coreClockLost _ => true
  | .mpPllUnlock => true
  | .calLoadEdge => true
  | .calStrobeApply _ => true
  | .calQueueSample n _ _ => baseOk n
  | .switchoverTimeout => true
  | .startupSelftestComplete u _ => unitOk u
  | .eyeFigureRefresh n _ _ _ _ _ _ => laneOk n || n == 512
  | .uncorrectableCodeword h => portOk h
  | .slowClockToXtal => true
  | .calNcoSample n _ => baseOk n
  | .mpLinkRestart _ => true

end Sys2Proof
end

