-- ==== Sys2Proof/Tests/Slice0.lean ====
section
/-! SUPPORT. The model's own tests: WellFormed refuses an ill-formed term of each check, small steps on small states, and a
witness for the hypotheses of every statement. -/

namespace Sys2Proof.Tests

open Sys2Proof.Machine

/-! ### Small states -/

/-- A booted device in ACTIVE, its Management Port UP; unit A holds the baton, unit B is in STANDBY. -/
def awake : State :=
  { boot := { porstLow := false, porstPin := false, complete := true }
    pwr := { state := .active, target := .active, ctlOn := true, hbmTrained := true, slowXtal := true, xtalTrying := false }
    hbm := { state := 0 }
    mp := { state := .up }
    cal := { safeRead := true }
    cu := { held := true, units := [(0, { state := .active, inReset := false }), (1, { state := .standby, inReset := false })] } }

/-- Engine 0 at address 7 with two registers set. -/
def engSt : State := { awake with engines := [(0, { loaded := true, pc := 7, g := [(1, 5), (2, 0xFFFFFF)] })] }

/-- `engSt` with a change of engine 0. -/
def engWith (f : Engine → Engine) : State := engSt.onEng 0 f

/-- A small programme of one path and one channel: generation 9, orbits of 256 fine samples. -/
def aProg : Programme :=
  { generation := 9, fsHz := 1000, n := 256, groups := 1, owners := [0], localPaths := [0]
    paths := [{ path := 0, flags := 0, slFirShift := 0, ncoInc := 0, ncoPhase0 := 0, slReqShift := 0, fbFirShift := 0
                fbReqShift := 0 }]
    hA := [1], hB := [1], shares := [1, 1, 64, 1, 1]
    regions := [{ kind := 1, depth := 4, reach := 0, base := 0, size := 32768 },
                { kind := 2, depth := 4, reach := 0, base := 32768, size := 32768 },
                { kind := 5, depth := 4, reach := 0, base := 65536, size := 32768 },
                { kind := 6, depth := 4, reach := 0, base := 98304, size := 32768 }] }

/-- `engSt` with the programme in effect from orbit 0, engine 0 running its code. -/
def progSt : State := { engWith (fun g => { g with gen := 9 }) with
  prg := { slots := [(0, { state := .inEffect, generation := 9, prog := some aProg, payloadMax := 8000, run := 1 })], runs := 1, frame := some 0 }
  orb := { oldest := some 0 } }

/-! ### Witnesses of the engine statements -/

theorem witness_engine : engSt.seqReady 0 = true ∧ State.reset.seqReady 0 = false := by decide

theorem witness_branches : engSt.seqReady 0 = true ∧ (4095 : Nat) < 4096 := by decide

theorem witness_repeat :
    engSt.seqReady 0 = true ∧ (engSt.eng 0).delay = none ∧ (engSt.eng 0).loops = [] ∧ (1 : Nat) < 2 ∧
      (engSt.eng 0).pc + 4087 < 4095 := by decide

/-- Feed ring 0 of length 4 full, ring 1 of length 4 one line short, and a pass queued. -/
def ringSt : State := engWith fun g => { g with
  cl := [(0, 4), (1, 4)], rings := [(0, { wpos := 0, fill := 4 }), (1, { wpos := 3, fill := 3 })] }

/-- A pass of engine 0 that reads lines 0 and 1 for slot 0. -/
def aPass : ArrayPass :=
  { beam := false, row := { first := 0, base := 0, len := 4, ring := 0 }, col := { first := 1, base := 0, len := 4, ring := 0 }
    lines := 1, slot := 0, scale := 0, real := false, number := 1 }

theorem witness_waitf :
    (ringSt.seqReady 0 = true ∧ min 4 ((ringSt.eng 0).len 0) ≤ (tget (ringSt.eng 0).rings 0 {}).fill) ∧
    (tget (ringSt.eng 0).rings 1 {}).fill < min 4 ((ringSt.eng 0).len 1) := by decide

/-- A queued pass and one issued more than has streamed. -/
def queuedSt : State := ringSt.onEng 0 fun g => { g with queue := [aPass], issued := 1 }

theorem witness_freef_psync :
    (ringSt.seqReady 0 = true ∧ (ringSt.eng 0).issued ≤ (ringSt.eng 0).streamed) ∧
    (queuedSt.seqReady 0 = true ∧ (queuedSt.eng 0).streamed < (queuedSt.eng 0).issued) ∧
    ((ringSt.eng 0).queue = [] ∧ (ringSt.eng 0).stream = none ∧ (ringSt.eng 0).writeBack = []) ∧
    (queuedSt.eng 0).queue ≠ [] := by decide

theorem witness_waito : engSt.seqReady 0 = true ∧ (engSt.eng 0).due = [] := by decide

/-- Register 3 names tile 8255, whose token is DELIVERED with generation 9; slot 41 is bound to it. -/
def tokenSt : State := { (engWith fun g => { g with
    gen := 9, g := [(3, 8255)], slots := [(41, { tile := 8255, valid := true, overflow := true })] }) with
  car := { tokens := [(8255, { state := 2, gen := 9 })] } }

/-- Slot 41 is BUSY by the array. -/
def busySt : State := engWith fun g => { g with slots := [(41, { tile := 8255, valid := true, busyBy := 1 })] }

theorem witness_slots :
    (tokenSt.seqReady 0 = true ∧ (41 : Nat) < 42 ∧ ((tokenSt.eng 0).slot 41).busyBy = 0) ∧
    ((tokenSt.gval 0 3).toNat % 2 ^ 14 ≤ 8255 ∧
      tokenSt.token ((tokenSt.gval 0 3).toNat % 2 ^ 14) = { state := 2, gen := (tokenSt.eng 0).gen % 256 }) ∧
    ((tokenSt.eng 0).slot 41).tile ≤ 8255 := by decide

theorem witness_slot_busy :
    (busySt.seqReady 0 = true ∧ busySt.pwr.low < 2 ∧ ((busySt.eng 0).slot 41).busyBy ≠ 0 ∧ (busySt.eng 0).queue.length < 2) ∧
    (engSt.seqReady 0 = true ∧ ((engSt.eng 0).slot 41).busyBy = 0 ∧
      (engSt.token ((engSt.gval 0 3).toNat % 2 ^ 14)).state ≠ 2) := by decide

theorem witness_pass : queuedSt.seqReady 0 = true ∧ (41 : Nat) < 42 ∧ ((queuedSt.eng 0).slot 41).busyBy = 0 ∧
    (queuedSt.eng 0).queue.length < 2 := by decide

/-- DMA channel 60 at 255 requests, channel 0 at 254. -/
def kickSt : State := { engSt with dma := { channels := [(0, { reqCount := 254 }), (60, { reqCount := 255 })] } }

theorem witness_dkick : kickSt.seqReady 0 = true ∧ (kickSt.dch 0).reqCount < 255 ∧ 255 ≤ (kickSt.dch 60).reqCount := by decide

/-- Supply shedding at stage 1, and at stage 2. -/
def stage1St : State := { engSt with pwr := { engSt.pwr with low := 1 } }
def stage2St : State := { engSt with pwr := { engSt.pwr with low := 2 } }

theorem witness_beam_passes :
    (stage1St.seqReady 0 = true ∧ stage1St.pwr.low < 2 ∧ (∀ p ∈ (stage1St.eng 0).queue, p.beam = false) ∧
      (stage1St.eng 0).stream = none ∧ ((stage1St.eng 0).slot 41).busyBy = 0 ∧ (stage1St.eng 0).queue.length < 2) ∧
    (stage2St.seqReady 0 = true ∧ 2 ≤ stage2St.pwr.low ∧ (41 : Nat) < 42) := by decide

/-- The array's write-back holds a pass with sums, and a beam pass. -/
def backSt (beam : Bool) : State := engWith fun g => { g with
  writeBack := [{ aPass with beam := beam, sums := [(3, -4, 1)] }], slots := [(0, { valid := true, busyBy := 1 })] }

theorem witness_array_start :
    queuedSt.engLive 0 = true ∧ queuedSt.stopAsked 0 = false ∧ (queuedSt.eng 0).queue = [aPass] ∧
      (queuedSt.eng 0).stream = none ∧ passFed (queuedSt.eng 0) aPass = true ∧ badLine (queuedSt.eng 0) aPass = none := by
  decide

set_option maxRecDepth 20000 in
theorem witness_array_writeback (beam : Bool) : (backSt beam).engLive 0 = true ∧ ((backSt beam).eng 0).writeBack.length = 1 ∧
    ((backSt beam).eng 0).waito = false ∧ (((backSt beam).eng 0).writeBack.all fun p => p.badWeights.isNone) = true ∧
    (((backSt beam).eng 0).slot 0).poisoned = false ∧
    (List.range 256).all (fun m => !(spread (addSum 0 (tget (((backSt beam).eng 0).slot 0).records m {})
      (([(3, -4, 1)] : List (Int × Int × Nat)).getD m (0, 0, 0)))).2.2) = true := by
  cases beam <;> decide

theorem witness_array_parity :
    queuedSt.engLive 0 = true ∧ (queuedSt.eng 0).queue = [aPass] ∧ (queuedSt.eng 0).stream = none ∧
      (queuedSt.eng 0).bad = [] ∧ passFed (queuedSt.eng 0) aPass = true ∧ 1 ∈ aPass.keys := by decide

/-- The pass of engine 0 in the array, aborted for line 1, whose block the engine holds. -/
def replaySt : State := progSt.onEng 0 fun g => { g with
  cl := [(0, 4)], rings := [(0, { wpos := 0, fill := 4 })], stream := some aPass, replaying := true
  bad := [(1, 5, false)], blocks := [(0, { id := { gen := 9, frame := 0, group := 0, kappa := 0, r := 0 }, vector := 0, lines := [[1, 2]] })] }

theorem witness_array_replay :
    replaySt.engLive 0 = true ∧ replaySt.granted 1 (replayBytes replaySt 0 aPass) = true ∧ (replaySt.eng 0).stream = some aPass ∧
      (replaySt.eng 0).replaying = true ∧ (replaySt.eng 0).starved = false ∧ passFed (replaySt.eng 0) aPass = true ∧
      (replaySt.eng 0).bad = [(1, 5, false)] ∧ 1 ∈ aPass.keys ∧
      (blockOf (replaySt.eng 0) aPass.spw aPass.col 1).isSome = true ∧
      ((replaySt.progGen 9).getD {}).region 1 ≠ none ∧ ((replaySt.progGen 9).getD {}).region 2 ≠ none := by decide

/-- The same pass after two replays, its blocks in place. -/
def thirdSt : State := replaySt.onEng 0 fun g => { g with bad := [], stream := some { aPass with replays := 2 } }

theorem witness_array_third_failure :
    thirdSt.engLive 0 = true ∧ (thirdSt.eng 0).replaying = true ∧
      thirdSt.granted 1 (replayBytes thirdSt 0 { aPass with replays := 2 }) = true ∧ (thirdSt.eng 0).starved = false ∧
      (thirdSt.eng 0).stream = some { aPass with replays := 2 } ∧ (thirdSt.eng 0).bad = [] ∧ 1 ∈ { aPass with replays := 2 }.keys ∧
      passFed (thirdSt.eng 0) { aPass with replays := 2 } = true ∧ ((thirdSt.eng 0).slot aPass.slot).poisoned = false ∧
      aPass.slot < 42 := by decide

/-- Engine 0 stalled in WAITF since cycle 0, its ring now full. -/
def stalledSt : State := { (ringSt.onEng 0 fun g => { g with stall := some (.waitf 0 4), stallKind := 2 }) with
  cycle := 5000000 }

/-- Engine 0 with stop requests and no stall. -/
def askedSt : State := engWith fun g => { g with halted := true }

theorem witness_engine_events :
    (stalledSt.engLive 0 = true ∧ stalledSt.seqStops 0 = false ∧ (stalledSt.eng 0).starved = false ∧
      (stalledSt.eng 0).stall = some (.waitf 0 4) ∧ engWaits stalledSt 0 (.waitf 0 4) = none ∧
      (stalledSt.eng 0).stallKind = 2) ∧
    (askedSt.engLive 0 = true ∧ askedSt.stopAsked 0 = true ∧ (askedSt.eng 0).stopped = false ∧
      (askedSt.eng 0).interruptible = true ∧ (askedSt.eng 0).stream = none ∧ (askedSt.eng 0).writeBack = []) ∧
    ((stalledSt.eng 0).stall ≠ none ∧ (stalledSt.eng 0).stallLong = false ∧
      (stalledSt.eng 0).stallSince + stalledSt.eff 0x0800 * 1000 < stalledSt.cycle + 0) ∧
    ((511 : Nat) < enginesOf engSt.fuses.variant ∧ engSt.dmaLive = true ∧ State.reset.dmaLive = false) := by decide

/-- An image of one section: CODE with one entry, for engine 0: the code word 0x11223344 and the constant 0x55667788 (11 R250,
R258). -/
def codeImage : Bytes :=
  List.replicate 6 0 ++ be 2 1 ++ List.replicate 56 0 ++
    be 2 8 ++ be 2 0 ++ be 4 80 ++ be 4 24 ++ be 4 0 ++
    be 2 0 ++ [0, 0] ++ be 2 1 ++ be 2 1 ++ List.replicate 8 0 ++ be 4 0x11223344 ++ be 4 0x55667788

/-- Slot 0 holds that image, of the generation that engine 0 runs. -/
def imageSt : State :=
  let s := engWith fun g => { g with gen := 9, code := [0], consts := [(0, 3)] }
  { s.hbmWrite (slotBase s.fuses.variant 0) codeImage with
    prg := { slots := [(0, { state := .inEffect, generation := 9, prog := some aProg, imageSize := some 104 })] } }

set_option maxRecDepth 100000 in
theorem witness_store_image :
    imageSt.engLive 0 = true ∧ imageSt.hbm.state = 0 ∧ (imageSt.eng 0).fault = false ∧ (imageSt.eng 0).refetched = [] ∧
      (imageCode imageSt 0).map (fun c => (c.code[0]?, c.consts[0]?)) = some (some 0x11223344, some 0x55667788) := by decide

theorem witness_store_refetch :
    (engSt.engLive 0 = true ∧ (engSt.eng 0).fault = false ∧ 5 ∉ (engSt.eng 0).refetched ∧ imageCode engSt 0 = none) ∧
    5 ∈ ((engWith fun g => { g with refetched := [5] }).eng 0).refetched := by decide

/-! ### Witnesses of the command statements -/

/-- A host on the Management Port. -/
def host : Origin := { transport := .managementPort, hp := 0, mac := 0x0200000000AA, ip := 0xC0A80701, port := 5000, tag := none }

/-- The host's next command in its session; the session's id is 8. -/
def hdr : CmdHdr := { origin := host, retransmit := false, toStandby := false, seq := 1, session := 8 }

/-- `awake` with an open controller session of the host in slot 0. -/
def sessSt : State := { awake with cmd := { nextJsn := 5, sessions := [(0, {
  isOpen := true, incarnation := 1, origin := some host, controller := true, timeoutS := 60 })] } }

/-- `n` zero bytes. -/
def zeros (n : Nat) : Bytes := List.replicate n 0

def helloP : Bytes := [1, 0, 0, 10] ++ zeros 16
def helloHdr : CmdHdr := { hdr with session := 0 }

set_option maxRecDepth 20000 in set_option synthInstance.maxSize 2000 in
theorem witness_hello :
    awake.carries helloHdr.origin = true ∧ awake.server = some 0 ∧ awake.cmd.queue = [] ∧ awake.resentHello helloHdr = none ∧
      helloP.length = 20 ∧ fld helloP 0 1 = 1 ∧ fld helloP 2 2 = 10 ∧ awake.freeSession = some 0 ∧ awake.controllerSlot = none ∧
      conditionCheck { hdr := helloHdr, op := .hello, p := helloP, unit := 0 } none awake = none := by decide

set_option maxRecDepth 20000 in set_option synthInstance.maxSize 2000 in
theorem witness_plain_commands :
    Admitted sessSt hdr .identify [] 0 0 ∧ Admitted sessSt hdr .echo [1, 2, 3] 0 0 ∧ Admitted sessSt hdr .goodbye [] 0 0 ∧
      Admitted sessSt hdr .eventsRead [] 0 0 ∧ Admitted sessSt hdr .eventsClear (zeros 128) 0 0 ∧
      Admitted sessSt hdr .journalMark (zeros 8) 0 0 ∧ Admitted sessSt hdr .cuStatus [] 0 0 := by decide

/-- DMA_STALL_WARN_US with a runtime value of 7. -/
def setSt : State := { sessSt with set := { runtime := [(0x0A00, 7)] } }
def getP (layer : Nat) : Bytes := [0x0A, 0x00] ++ be 1 layer ++ [0]
def setP : Bytes := [0x0A, 0x00, 0, 0] ++ be 8 1000000

set_option maxRecDepth 20000 in set_option synthInstance.maxSize 2000 in
theorem witness_settings_read :
    Admitted setSt hdr .getSetting (getP 3) 0 0 ∧ (keyInfo setSt.fuses 0x0A00).isSome = true ∧ fld (getP 3) 3 1 = 0 ∧
      fld (getP 3) 2 1 = 3 ∧ Admitted setSt hdr .listSettings [3, 0, 0, 0, 2, 0xE9, 0, 0] 0 0 := by decide

set_option maxRecDepth 20000 in set_option synthInstance.maxSize 2000 in
theorem witness_settings_written :
    (Admitted sessSt hdr .setSetting setP 0 0 ∧ valueOk sessSt.fuses 0x0A00 1000000 = true ∧
      keyRefused sessSt (sessSt.withRuntime (tput sessSt.set.runtime 0x0A00 1000000)) 0x0A00 = none) ∧
    (Admitted setSt hdr .revertSetting (getP 0) 0 0 ∧ thas setSt.set.runtime 0x0A00 = true ∧
      keyRefused setSt (setSt.withRuntime (tdel setSt.set.runtime 0x0A00)) 0x0A00 = none) ∧
    (Admitted setSt hdr .revertSetting [0, 0, 1, 0] 0 0 ∧
      firstRefused setSt (setSt.withRuntime []) (setSt.set.runtime.map (·.1)) = none) ∧
    (Admitted setSt hdr .commitPreset [0, 0, 0, 0] 0 0 ∧ setSt.flashHeld = false) ∧
    (Admitted setSt hdr .commitPreset [1, 0, 0, 1, 0x0A, 0x00] 0 0 ∧
      ∀ k ∈ listedKeys [1, 0, 0, 1, 0x0A, 0x00], thas setSt.set.runtime k = true) := by decide

/-- Stages 3 and 4 latched and over, the junction tripped and cooled. -/
def latchedSt : State := { sessSt with pwr := { sessSt.pwr with low := 2, latched := [4, 3], tripped := true, junction := 99, sag := 49 } }

/-- The same with the HBM in self-refresh; and its training, for which RESUME waits. -/
def trainSt : State := { latchedSt with hbm := { state := 3 } }
def resumeWaits : State := { sessSt with
  pwr := { sessSt.pwr with hbmTrained := false, hbmResume := true, attempt := 1 }, hbm := { state := 2 }
  cmd := { sessSt.cmd with awaited := some (some 0, bareReply hdr 0x21 .ok 4 []) } }

set_option maxRecDepth 20000 in set_option synthInstance.maxSize 2000 in
theorem witness_state_and_power :
    (Admitted sessSt hdr .getState [0, 0, 0, 0, 0, 9, 0, 0] 0 0 ∧ selectorSize sessSt.fuses.variant 0 ≠ some 0 ∧
      (selectorSize sessSt.fuses.variant 0).isSome = true) ∧
    (Admitted sessSt hdr .enterPowerState [0, 0, 0, 0] 0 0 ∧ sessSt.pwr.latched = [] ∧ sessSt.pwr.state = powerOf 0) ∧
    (Admitted sessSt hdr .enterPowerState [3, 0, 0, 0] 0 0 ∧ sessSt.pwr.state ≠ powerOf 3 ∧ sessSt.boot.step = 0 ∧
      (handshakeBlocks sessSt.pwr.state (powerOf 3)).head? = some 1) ∧
    (Admitted latchedSt hdr .resume [] 0 0 ∧ latchedSt.pwr.sag < shedEnter latchedSt 3 - shedHyst latchedSt 3 ∧
      latchedSt.pwr.tripped = true ∧ latchedSt.pwr.junction < (latchedSt.threshold 0x0B09 : Nat) ∧ latchedSt.hbm.state ≠ 3) ∧
    (Admitted trainSt hdr .resume [] 0 0 ∧ trainSt.pwr.sag < shedEnter trainSt 3 - shedHyst trainSt 3 ∧
      (4 ∈ trainSt.pwr.latched ∧ trainSt.pwr.state.awake = true ∧ trainSt.hbm.state = 3)) ∧
    (resumeWaits.boot.porstLow = false ∧ resumeWaits.pwr.wakeStep = 0 ∧ resumeWaits.pwr.hbmResume = true ∧
      resumeWaits.hbm.state = 2 ∧ resumeWaits.cmd.awaited.isSome = true) := by decide

/-- A chunk of 1 byte at offset 0 of slot 2, and a segment chunk of 1 of 2 bytes. -/
def chunkP : Bytes := [0, 2, 0, 0, 0, 0, 0, 0, 0x47]
/-- The first 16 bytes of an image of 16 bytes. -/
def imageP : Bytes := List.replicate 12 0 ++ be 4 16
/-- The chunk's byte read into the burst buffer of channel 62. -/
def loadCh : DmaChannel :=
  { state := 1, readBytes := 1, desc := some (internalDesc 0 8 1 0 (slotBase .gl2048 2) true 1)
    inFlight := [{ offset := 0, length := 1, data := [0x47], damaged := false }] }
def loadSt : State := { sessSt with
  cmd := { sessSt.cmd with awaited := some (some 0, bareReply hdr 0x30 .ok 4 []) }
  prg := { loading := some (.image 2 0 [0x47]) }
  dma := { order := [62], channels := [(62, loadCh)] } }
def segP : Bytes := [1, 0, 0, 0, 0, 0, 0, 9, 0, 0, 0, 0, 0, 0, 0, 2, 0x55]

set_option maxRecDepth 20000 in set_option synthInstance.maxSize 2000 in
theorem witness_programme_loading :
    (Admitted sessSt hdr .loadProgramme chunkP 0 0 ∧ fld chunkP 0 1 = 0 ∧ fld chunkP 1 1 = 2 ∧ fld chunkP 2 2 = 0 ∧
      (sessSt.slot 2).state.held = false ∧ sessSt.boot.hbmFailed = false ∧ sessSt.hbm.state = 0 ∧ sessSt.portShare 2 ≠ some 0 ∧
      sessSt.working (fun w => w == .validate 2) = false ∧ (sessSt.dch 62).state = 0 ∧
      runsCover (addRun 0 1 (sessSt.slot 2).received) 16 = false) ∧
    (runsCover (addRun 0 16 (sessSt.slot 2).received) 16 = true ∧
      fld ((sessSt.hbmWrite (slotBase sessSt.fuses.variant 2) imageP).hbmRead (slotBase sessSt.fuses.variant 2) 16) 12 4 = 16 ∧
      0 + imageP.length ≤ 16) ∧
    (memWf 0 loadSt.hbm.mem = true ∧ loadSt.prg.loading = some (.image 2 0 [0x47]) ∧ loadSt.cmd.awaited.isSome = true ∧
      loadSt.fuses.variant = .gl2048 ∧ loadSt.dmaLive = true ∧ loadSt.dma.order = [62] ∧ writeWaits loadSt = false ∧ (loadSt.dch 62).waiting = [] ∧
      (loadSt.dch 62).hbmBad = false ∧ (loadSt.dch 62).written = 0 ∧ loadSt.working (fun w => w == .dmaStop 62) = false) ∧
    (Admitted sessSt hdr .loadProgramme segP 0 0 ∧ fld segP 0 1 = 1 ∧ fld segP 1 3 = 0 ∧ sessSt.boot.hbmFailed = false ∧
      (sessSt.prg.assemblies.find? fun a => a.generation == 9 && a.total == 2) = none ∧
      runsCover [(0, 1)] 2 = false) := by decide

/-- Programme slot 0 in a state. -/
def slotSt (x : SlotState) : State := { sessSt with
  set := { runtime := [(0x0540, 0)] }
  engines := [(0, { loaded := true, gen := 9 })]
  prg := { slots := [(0, { state := x, generation := 9, prog := some aProg })] }, orb := { oldest := some 3 } }

def armP : Bytes := [0, 0, 0, 0] ++ be 8 7
def haltP (flags n : Nat) : Bytes := [0] ++ be 1 flags ++ [0, 0] ++ be 8 n

set_option maxRecDepth 20000 in set_option synthInstance.maxSize 2000 in
theorem witness_programme_commands :
    (Admitted (slotSt .loaded) hdr .validateProgramme (zeros 4) 0 0 ∧ ((slotSt .loaded).slot 0).state = .loaded ∧
      (slotSt .loaded).working (fun w => w == .validate 0) = false) ∧
    (Admitted (slotSt .valid) hdr .armProgramme armP 0 0 ∧ ((slotSt .valid).slot 0).state = .valid ∧
      ((slotSt .valid).slot 0).prog = some aProg ∧ (slotSt .valid).slotIn .armed = none ∧
      firstFailure (armChecks (slotSt .valid) aProg 7) = none) ∧
    (Admitted (slotSt .armed) hdr .haltProgramme (haltP 0 7) 0 0 ∧ ((slotSt .armed).slot 0).state = .armed) ∧
    (Admitted (slotSt .inEffect) hdr .haltProgramme (haltP 0 7) 0 0 ∧ ((slotSt .inEffect).slot 0).state = .inEffect ∧
      (slotSt .inEffect).slotIn .armed = none ∧ (slotSt .inEffect).orb.oldest = some 3 ∧ 3 + 4 ≤ fld (haltP 0 7) 4 8) ∧
    (Admitted (slotSt .inEffect) hdr .haltProgramme (haltP 1 0) 0 0 ∧ fld (haltP 1 0) 1 1 = 1) := by decide

/-- Base 0 LOCKED with epoch 5, base 1 UNSET, base 2 UNSET on PPS_IN, base 3 LOCKED. -/
def tbSt : State := { sessSt with
  set := { runtime := [(0x0510, 0), (0x0520, 3), (0x0530, 2)] }
  tbs := [(0, { mode := .locked, count := 2 ^ 32, lastEpoch := 5 }), (1, { mode := .unset }), (2, { mode := .unset }),
          (3, { mode := .locked, count := 7 * 10 ^ 9 * 2 ^ 32 })] }

/-- Base 2 LOCKED on PPS_IN. -/
def ppsLockedSt : State := tbSt.onTb 2 fun b => { b with mode := .locked }

def tbCfgP : Bytes := [1, 3, 0, 0, 0, 0, 0, 0]
def tbTimeP (n form : Nat) : Bytes := be 1 n ++ be 1 form ++ be 6 9 ++ be 4 999999999 ++ [0, 0]
def alarmP (n mask : Nat) : Bytes := be 1 n ++ be 1 mask ++ [0xFF, 0] ++ be 6 9 ++ be 4 0 ++ [0, 0] ++ be 8 1000

set_option maxRecDepth 20000 in set_option synthInstance.maxSize 2000 in
theorem witness_time_base_commands :
    (Admitted tbSt hdr .tbConfigure tbCfgP 0 0 ∧
      (∀ i, i < 4 → valueOk tbSt.fuses (0x0500 + 16 * 1 + i) (fld tbCfgP (1 + i) 1) = true) ∧ cfgRate (tbSt.hp (fld tbCfgP 2 1)).trained = 0 ∧
      firstRefused tbSt (tbSt.withRuntime
        ((List.range 4).foldl (fun t i => tput t (0x0500 + 16 * 1 + i) (fld tbCfgP (1 + i) 1)) tbSt.set.runtime))
        ((List.range 4).map fun i => 0x0500 + 16 * 1 + i) = none ∧ tbSt.tbKey 1 0 ≠ fld tbCfgP 1 1) ∧
    (Admitted tbSt hdr .tbStep (tbTimeP 1 0) 0 0 ∧ timeField (tbTimeP 1 0) 2 ≠ none ∧ (tbSt.tb 1).mode = .unset ∧
      (tbSt.tb 1).stepWait = none ∧ tbSt.onPps 1 = false) ∧
    (Admitted tbSt hdr .tbStep (tbTimeP 2 0) 0 0 ∧ timeField (tbTimeP 2 0) 2 ≠ none ∧ (tbSt.tb 2).mode = .unset ∧
      (tbSt.tb 2).stepWait = none ∧ tbSt.onPps 2 = true) ∧
    (Admitted tbSt hdr .tbRestep (tbTimeP 0 0) 0 0 ∧ (tbSt.tb 0).hasTime = true ∧ (tbSt.tb 0).stepWait = none ∧
      tbSt.onPps 0 = false) ∧
    (Admitted ppsLockedSt hdr .tbRestep (tbTimeP 2 0) 0 0 ∧ (ppsLockedSt.tb 2).hasTime = true ∧ (ppsLockedSt.tb 2).stepWait = none ∧
      ppsLockedSt.onPps 2 = true) ∧
    (Admitted tbSt hdr .tbRestep (tbTimeP 3 1) 0 0 ∧ fld (tbTimeP 3 1) 1 1 = 1 ∧ timeField (tbTimeP 3 1) 2 ≠ none ∧
      (tbSt.tb 3).hasTime = true ∧ (tbSt.tb 3).stepWait = none) ∧
    (Admitted tbSt hdr .tbStatus [3, 0] 0 0 ∧ Admitted tbSt hdr .tbAlarm (alarmP 15 7) 0 0 ∧
      (tbSt.tb (15 / 4)).hasTime = true ∧
      (∃ x, timeField (alarmP 15 7) 4 = some x ∧ (tbSt.tb (15 / 4)).count + 1000 * 2 ^ 32 ≤ x.2)) ∧
    Admitted tbSt hdr .tbAlarm (alarmP 15 0) 0 0 := by
  refine ⟨by decide, by decide, by decide, by decide, by decide, by decide, ⟨by decide, by decide, by decide, ?_⟩, by decide⟩
  exact ⟨_, rfl, by decide⟩

/-- PORT_CONFIGURE of the last half-port: Midway at rate 0, with and without IDLE; and of the Management Port. -/
def portP (n flags cfg : Nat) : Bytes := be 1 n ++ be 1 flags ++ [0, 0] ++ be 4 cfg

/-- Half-port 127 UP. -/
def portSt : State := { sessSt with hps := [(127, { state := .up })] }

/-- Half-port 126's word holds mode 5 at rate 0, or another mode, and half-port 126 is in FAULT. -/
def pairSt (cfg : Nat) : State := { sessSt with
  set := { runtime := [(0x027E, cfg)] }, hps := [(126, { state := .fault })] }

set_option maxRecDepth 20000 in set_option synthInstance.maxSize 2000 in
theorem witness_port_commands :
    (Admitted sessSt hdr .portConfigure (portP 127 1 4) 0 0 ∧ (127 : Nat) < halfPortsOf sessSt.fuses.variant ∧
      hpConfigOk 4 = true ∧ canIdle 4 = true ∧ pairOk 4 (sessSt.hpConfig (partnerOf 127)) = true ∧
      sessSt.hpUsed 127 = false ∧ (sessSt.hp 127).stopped = false ∧ sessSt.refsLost = [] ∧
      sessSt.portBusy (sessSt.hpGroup 127 ++ (configured 127 false 4 sessSt).cfgGroup 127) = false) ∧
    Admitted sessSt hdr .portConfigure (portP 127 0 4) 0 0 ∧ Admitted sessSt hdr .portConfigure (portP 255 0 0) 0 0 ∧
    Admitted sessSt hdr .portStatus [127, 0, 0, 0] 0 0 ∧ Admitted sessSt hdr .laneLoopback [127, 3, 0, 0] 0 0 ∧
    (Admitted (pairSt 5) hdr .portConfigure (portP 127 1 5) 0 0 ∧ hpConfigOk 5 = true ∧ canIdle 5 = true ∧
      pairOk 5 ((pairSt 5).hpConfig (partnerOf 127)) = true ∧ (pairSt 5).hpUsed 127 = false ∧
      (pairSt 5).portBusy ((pairSt 5).hpGroup 127 ++ (configured 127 false 5 (pairSt 5)).cfgGroup 127) = false ∧
      { pairSt 5 with set := { runtime := [(0x027E, 5), (0x027F, 5)] } }.waitsPartner 127 = false) ∧
    (pairOk 5 ((pairSt 0).hpConfig (partnerOf 127)) = true ∧
      { pairSt 0 with set := { runtime := [(0x027F, 5)] } }.waitsPartner 127 = true) ∧
    (Admitted (pairSt 0) hdr .laneLoopback [126, 1, 0, 0] 0 0 ∧ ((pairSt 0).hp 126).state = .fault ∧
      (pairSt 0).hpUsed 126 = false ∧ ((pairSt 0).hp 126).stopped = false ∧
      (pairSt 0).portBusy ((pairSt 0).hpGroup 126) = false) ∧
    (Admitted portSt hdr .laneEye [1, 255, 0, 0] 0 0 ∧ fld [1, 255, 0, 0] 0 2 < 4 * halfPortsOf portSt.fuses.variant ∧
      (portSt.hp (511 / 4)).state ∈ [LinkState.training, .up, .loopback, .test] ∧
      (portSt.hp (511 / 4)).scanLane = none) := by decide

/-- A no-op descriptor with END. -/
def endDesc : Bytes := [0, 1, 1, 0] ++ zeros 28

def submitP : Bytes := [60, 0] ++ be 2 4095 ++ be 2 1 ++ [0, 0] ++ endDesc
def linkP : Bytes := [60, 0] ++ be 2 4095 ++ be 2 7 ++ [0, 0]

/-- Channel 60 runs with a descriptor held, or between descriptors; descriptor 4,095 has END. -/
def chanSt (x : DmaChannel) : State := { sessSt with
  dma := { channels := [(60, x)] }, bus := { sram := memWrite 0 [] (32 * 4095) endDesc } }

set_option maxRecDepth 20000 in set_option synthInstance.maxSize 2000 in
theorem witness_dma_commands :
    (Admitted sessSt hdr .dmaSubmit submitP 0 0 ∧ sessSt.progOwned 60 = false ∧ memWf 0 sessSt.bus.sram = true ∧
      (∀ i, i < 1 → hostDescOk sessSt.fuses.variant 0 (slice submitP (8 + 32 * i) 32) = true)) ∧
    (let s := chanSt { state := 1, desc := some endDesc, current := 4095 }
     Admitted s hdr .dmaLink linkP 0 0 ∧ s.progOwned 60 = false ∧ (s.dch 60).desc = some endDesc ∧
      (s.dch 60).current = 4095) ∧
    (let s := chanSt { state := 4 }
     Admitted s hdr .dmaLink linkP 0 0 ∧ (s.dch 60).desc = none ∧ (s.dch 60).state = 4 ∧ dEnd (s.hostDesc 4095) = true) ∧
    (let s := chanSt { state := 3, desc := some endDesc }
     Admitted s hdr .dmaStop [60, 0, 0, 0] 0 0 ∧ (s.dch 60).state = 3 ∧ (s.dch 60).desc ≠ none) ∧
    (let s := chanSt { state := 4 }
     Admitted s hdr .dmaStop [60, 0, 0, 0] 0 0 ∧ (s.dch 60).state ≠ 1 ∧ (s.dch 60).state ≠ 3) := by
  refine ⟨by decide, ?_, ?_, ?_, ?_⟩ <;> dsimp only <;> decide

/-- The HBM frozen by a CA parity error, and the capture in a state. -/
def frozenSt : State := { sessSt with hbm := { state := 1, kind := 3, address := 64, port := 2, held := [] } }
def capSt (n : Nat) : State := { sessSt with cap := { state := n } }

/-- A FROZEN capture of orbits 5 to 8 over one channel and path. -/
def heldCapSt : State := { sessSt with cap := { state := 3, oldest := some 5, newest := some 8, layout := some {
  gen := 9, n := 256, z := 1, base := 65536, depth := 4, chFirst := 0, chCount := 1, pathFirst := 0, pathCount := 1 } } }
/-- A dump of orbits 8 and 9 behind half-port 127. -/
def dumpP : Bytes := be 8 8 ++ be 2 2 ++ [0, 0, 127, 0] ++ zeros 14

set_option maxRecDepth 20000 in set_option synthInstance.maxSize 2000 in
theorem witness_hbm_commands :
    (Admitted frozenSt hdr .hbmStatus [0, 0, 2, 41] 0 0 ∧ fld [0, 0, 2, 41] 2 2 = 553) ∧
    (Admitted frozenSt hdr .hbmThaw [] 0 0 ∧ frozenSt.hbm.state = 1) ∧
    (Admitted (capSt 1) hdr .captureFreeze [0, 0, 0, 0] 0 0 ∧ (capSt 1).cap.state = 1) ∧
    (Admitted (capSt 3) hdr .captureFreeze [1, 0, 0, 0] 0 0 ∧ (capSt 3).cap.state = 3 ∧ (capSt 3).cmd.pending = []) ∧
    (Admitted (capSt 3) hdr .captureDump (zeros 12 ++ [127] ++ zeros 15) 0 0 ∧ (capSt 3).hbm.state ≠ 1 ∧
      (capSt 3).cmd.pending = []) ∧
    (Admitted heldCapSt hdr .captureDump dumpP 0 0 ∧ fld dumpP 12 1 = 127 ∧ fld dumpP 0 8 = 8 ∧ fld dumpP 8 2 = 2 ∧
      heldCapSt.hbm.state = 0 ∧ heldCapSt.cmd.pending = [] ∧
      heldCapSt.cap.layout.map (·.z) = some 1 ∧ heldCapSt.eff 0x0308 < 2 ^ 31) := by decide

set_option maxRecDepth 20000 in set_option synthInstance.maxSize 2000 in
theorem witness_event_commands :
    Admitted sessSt hdr .faultRecordRead [63, 64, 1, 0] 0 0 ∧
    (Admitted sessSt hdr .eventRoute [3, 254, 15, 0] 0 0 ∧ eventPresent sessSt.fuses.variant (fld [3, 254, 15, 0] 0 2) = true) ∧
    Admitted sessSt hdr .journalRead (zeros 8 ++ [0, 139, 0, 0]) 0 0 := by decide

/-- Image firmware is not needed in recovery, which the running copy 2 stands for. -/
def recoverySt : State := { sessSt with boot := { sessSt.boot with copy := 2 } }

def calCfgP : Bytes := [3, 2, 7, 0] ++ be 8 (2 ^ 48 - 1) ++ be 8 (2 ^ 48 - 1) ++ [0, 1, 0, 1, 0, 0, 0, 0]
def calQueueP : Bytes := [3, 0, 0, 2, 0x1F, 0xFF, 0xE0, 0x01]

set_option maxRecDepth 20000 in set_option synthInstance.maxSize 2000 in
theorem witness_ringmaster_and_calliope_commands :
    Admitted sessSt hdr .cuHealth [1, 0, 0, 0] 0 0 ∧
    (Admitted sessSt hdr .cuSwitchover [] 0 0 ∧ sessSt.cu.switchover = none ∧
      (sessSt.unit (1 - sessSt.cu.holder)).state = .standby ∧
      (sessSt.unit (1 - sessSt.cu.holder)).mismatchSinceCommit = false) ∧
    Admitted sessSt hdr .calConfigure calCfgP 0 0 ∧
    (Admitted sessSt hdr .calQueue calQueueP 0 0 ∧ ∀ x ∈ calSamples calQueueP, -8191 ≤ x ∧ x ≤ 8191) ∧
    (Admitted sessSt hdr .calStrobe [255, 0, 0, 0] 0 0 ∧ sessSt.cal.strobes = []) := by decide

/-- The last word of the HBM. -/
def topA : Nat := hbmCapacity sessSt.fuses.variant - 4
def peekP : Bytes := [0, 0, 0, 1] ++ be 8 topA
def selfP : Bytes := [1, 0] ++ be 2 511 ++ be 2 1 ++ [0, 0]
def verifiedSt : State := { sessSt with boot := { sessSt.boot with verified := [(1, true)] } }

set_option maxRecDepth 20000 in set_option synthInstance.maxSize 2000 in
theorem witness_system_commands :
    (Admitted sessSt hdr .peek peekP 0 0 ∧ topA % 4 = 0 ∧ topA + 4 * 1 ≤ hbmCapacity sessSt.fuses.variant ∧
      sessSt.hbm.state = 0 ∧ sessSt.hbm.bad = [] ∧ sessSt.portShare 6 ≠ some 0 ∧ sessSt.cmd.pending = []) ∧
    (Admitted sessSt hdr .poke (peekP ++ [1, 2, 3, 4]) 0 0 ∧ sessSt.heldProgrammes = [] ∧ memWf 0 sessSt.hbm.mem = true) ∧
    (Admitted sessSt hdr .selftest selfP 0 0 ∧ 511 + 1 ≤ enginesOf sessSt.fuses.variant ∧
      (sessSt.eng 511).loaded = false ∧ sessSt.cmd.pending = []) ∧
    (Admitted sessSt hdr .imageWrite ([1, 0, 0, 0, 0, 0, 0, 0] ++ [0x47]) 0 0 ∧ 1 ≤ imageArea sessSt ∧
      sessSt.boot.copy ≠ 1 ∧ sessSt.flashHeld = false) ∧
    Admitted sessSt hdr .imageVerify [1, 0, 0, 0] 0 0 ∧
    (Admitted verifiedSt hdr .imageActivate [1, 0, 0, 0] 0 0 ∧ tget verifiedSt.boot.verified 1 false = true ∧
      activeCopy verifiedSt ≠ some 1) := by decide

/-- A minimal unsigned image: version 7, one firmware section of 4 bytes (19 R419, R420). -/
def imageHead : Bytes := be 4 0x52594E53 ++ [1, 0xFF] ++ be 2 1 ++ be 4 52 ++ be 4 7 ++ zeros 12
def imageBytes : Bytes :=
  imageHead ++ be 4 (crc32c imageHead) ++ be 2 1 ++ be 2 0 ++ be 4 48 ++ be 4 4 ++ be 4 (crc32c [1, 2, 3, 4]) ++ [1, 2, 3, 4]

/-- `s` with that image in copy 0. -/
def withImage (s : State) : State := { s with boot := { s.boot with flash := memWrite 0xFF [] 0 imageBytes } }

set_option maxRecDepth 100000 in set_option synthInstance.maxSize 2000 in
theorem witness_resync :
    Admitted (withImage sessSt) hdr .cuResync [1, 0, 0, 0] 0 0 ∧ (withImage sessSt).cu.holder ≠ 1 ∧
      (withImage sessSt).working (fun w => w == .resync 1) = false ∧ firmwareOk (withImage sessSt) = true := by decide

/-- A good packet of 20 bytes, without parameters or packet CRC of its own. -/
def packet20 : Bytes :=
  let head := be 2 0x6E4D ++ zeros 12
  head ++ be 2 (crc16 head) ++ zeros 4

/-- `sessSt` with 64 packets waiting. -/
def crowdedSt : State := { sessSt with cmd := { sessSt.cmd with
  queue := List.replicate 64 { origin := host, bytes := packet20, passing := false, waited := false } } }

set_option maxRecDepth 20000 in set_option synthInstance.maxSize 2000 in
theorem witness_packets :
    sessSt.boot.porstLow = false ∧ sessSt.carries host = true ∧
      sessSt.carries { host with transport := .halfPort } = false ∧ (zeros 20).length = 20 ∧ fld (zeros 20) 0 2 ≠ 0x6E4D ∧ 20 ≤ packet20.length ∧
      packet20.length ≤ 8980 ∧ fld packet20 0 2 = 0x6E4D ∧ fld packet20 14 2 = crc16 (packet20.take 14) ∧
      sessSt.cmd.queue.length < 64 ∧ 64 ≤ crowdedSt.cmd.queue.length := by decide

/-- `sessSt` whose session has had SEQ 5, its reply cached. -/
def cachedSt : State := { sessSt with cmd := { sessSt.cmd with sessions := [(0, { sessSt.session 0 with
  high := 5, cache := [{ seq := 5, reply := bareReply { hdr with seq := 5 } 0x01 .ok 4 [], pending := false }] })] } }
/-- `sessSt` whose session is an observer's. -/
def observerSt : State := { sessSt with cmd := { sessSt.cmd with sessions := [(0, { sessSt.session 0 with controller := false })] } }

set_option maxRecDepth 20000 in set_option synthInstance.maxSize 2000 in
theorem witness_repeated_and_stale :
    cachedSt.server = some 0 ∧ cachedSt.cmd.queue = [] ∧ hdr.session.toNat ≠ 0 ∧ cachedSt.carries host = true ∧
      cachedSt.findSession 8 host = some 0 ∧ ((cachedSt.session 0).cached 5).isSome = true ∧
      (cachedSt.session 0).cached 4 = none ∧ 2 ^ 31 ≤ (4 + 2 ^ 32 - (cachedSt.session 0).high) % 2 ^ 32 ∧
      cachedSt.findSession 9 host = none ∧ cachedSt.carries { host with transport := .halfPort } = false := by decide

set_option maxRecDepth 20000 in set_option synthInstance.maxSize 2000 in
theorem witness_observer :
    observerSt.carries host = true ∧ observerSt.server = some 0 ∧ observerSt.cmd.queue = [] ∧ hdr.toStandby = false ∧
      observerSt.findSession 8 host = some 0 ∧ (observerSt.session 0).cached 1 = none ∧
      (1 + 2 ^ 32 - (observerSt.session 0).high) % 2 ^ 32 = 1 ∧ (observerSt.session 0).cacheStuck = false ∧
      (observerSt.session 0).controller = false ∧ Op.setSetting.classR = false ∧ Op.setSetting.lengthOk setP = true := by decide

/-- A pending command of the session in slot 0. -/
def pendingOf (seq : Nat) (w : PendingWork) : PendingCommand :=
  { session := 8, seq := seq, opcode := 0x74, origin := host, paramLength := 8, digest := 0, work := w }

/-- `withImage sessSt` with SELFTEST, IMAGE_VERIFY and COMMIT_PRESET pending. -/
def workSt : State := { withImage sessSt with cmd := { (withImage sessSt).cmd with
  sessions := [(0, { sessSt.session 0 with high := 3 })]
  pending := [pendingOf 1 (.selftest 1 511 1), pendingOf 2 (.imageVerify 0), pendingOf 3 (.commitPreset none)] } }

set_option maxRecDepth 100000 in set_option synthInstance.maxSize 2000 in
theorem witness_completions :
    workSt.server = some 0 ∧ workSt.findSession 8 host = some 0 ∧
      (∀ c ∈ workSt.cmd.pending, (workSt.cmd.pending.find? fun c' => c'.session == c.session && c'.seq == c.seq) = some c) ∧
      (workSt.cmd.pending.map (·.work)) = [.selftest 1 511 1, .imageVerify 0, .commitPreset none] ∧
      (ryunosCrc workSt 0).isSome = true ∧ (sessSt.session 0).isOpen = true := by decide

/-- The Sideband with 4 reply bytes of which 1 is read, and BUSY. -/
def sbSt (busy : Bool) : State := { sessSt with cmd := { sessSt.cmd with
  sideband := { reply := [1, 2, 3, 4], replyPos := 1, ready := true, busy := busy } } }

set_option maxRecDepth 20000 in set_option synthInstance.maxSize 2000 in
theorem witness_sideband :
    (sbSt false).boot.porstLow = false ∧ (sbSt false).cmd.sideband.busy = false ∧ (sbSt true).cmd.sideband.busy = true ∧
      (sbSt false).cmd.sideband.replyPos + 3 ≤ (sbSt false).cmd.sideband.reply.length ∧
      (sbSt false).cmd.sideband.command.length + packet20.length ≤ 8980 ∧ (sbSt false).cmd.queue.length < 64 ∧
      sbPecOk (sbSt false) none [0xA4] = true ∧
      (∀ code ∈ [0xA0#8, 0xA1#8], sbPecOk (sbSt false) none (code :: BitVec.ofNat 8 packet20.length :: packet20) = true) := by
  decide

/-! ### Witnesses of the statements on boot, power and clocks -/

/-- Held by the pin; by a TAP instruction, with and without the pin. -/
def heldSt : State := { awake with boot := { tapIr := 4, tapHeld := true } }
def tapSt : State := { awake with boot := { porstPin := false, tapIr := 4, tapHeld := true } }

/-- A read of the debug access port outstanding. -/
def openBusSt : State := { awake with bus := { outstanding := [(4, {
  write := false, target := .sram, offset := 64, beats := 4, done := 1, data := [], stops := [] })] } }

theorem witness_reset_and_boot :
    (awake.boot.tapHeld = false ∧ heldSt.boot.tapHeld = true) ∧
    (State.reset.boot.porstPin = true ∧ State.reset.boot.tapHeld = false ∧ State.reset.cu.held = false ∧
      State.reset.cu.passing = false ∧ State.reset.cmd.awaited = none) ∧
    (heldSt.boot.porstPin = true ∧ tapSt.boot.porstPin = false ∧ tapSt.boot.tapHeld = true ∧ tapHolds 2 = false) ∧
    (openBusSt.boot.tapHeld = false ∧ thas openBusSt.bus.outstanding 4 = true) := by decide

/-- A boot at a step with BOOT_SEL, its units in a state. -/
def bootSt (step sel copy hbm : Nat) (u : CuState) : State :=
  { boot := { porstLow := false, porstPin := false, step := step, sel := sel, copy := copy }, pwr := { ctlOn := true, wakeStep := 1 }
    hbm := { state := hbm }
    cu := { units := [(0, { state := u, inReset := u == .off }), (1, { state := u, inReset := u == .off })] } }

theorem witness_boot_steps :
    (∀ sel, sel ≤ 3 → (bootSt 3 sel 0 4 .off).boot.porstLow = false ∧ (bootSt 3 sel 0 4 .off).boot.step = 3) ∧
    ((bootSt 4 2 2 4 .off).boot.step = 4 ∧ (bootSt 4 2 2 4 .off).boot.sel ≠ 3 ∧ (bootSt 4 2 2 4 .off).boot.copy = 2) ∧
    ((bootSt 6 0 0 2 .booting).hbm.state = 2 ∧ 3 < stacksOf (bootSt 6 0 0 2 .booting).fuses.variant) ∧
    ((bootSt 7 0 0 0 .syncing).boot.step = 7 ∧ ((bootSt 7 0 0 0 .syncing).unit 0).state = .syncing) ∧
    ((bootSt 4 3 0 4 .off).pwr.ctlOn = true ∧ (bootSt 4 3 0 4 .off).boot.sel = 3 ∧ ((bootSt 4 3 0 4 .off).unit 0).inReset = true ∧
      ((bootSt 4 3 0 4 .off).unit 1).inReset = true ∧ (bootSt 0 3 0 4 .off).boot.step = 0 ∧
      ((bootSt 0 3 0 4 .off).unit 0).inReset = true) ∧
    (∀ m ∈ [2, 4, 5], masterLive (bootSt 4 3 0 4 .off) m = true ∧ portTaken (bootSt 4 3 0 4 .off) m = false) ∧
    (busHolder .device (bootSt 4 3 0 4 .off) = false ∧ BusTarget.device ∉ (bootSt 4 3 0 4 .off).bus.closed) := by decide

/-- Asleep with a Sideband wake address, at a wake step with attempts. -/
def asleep (n attempt : Nat) : State := { awake with
  pwr := { awake.pwr with state := .sleep, target := .sleep, ctlOn := decide (4 ≤ n), hbmTrained := false, wakeStep := n
                          busy := n != 0, attempt := attempt, sbWakeAddr := 0x31, retainMask := 5 }
  hbm := { state := if 4 ≤ n then 2 else 4 }, boot := { awake.boot with copy := 2 }
  bus := { retained := [(0, 7), (2 ^ 22, 8), (2 ^ 23, 9)] }, cu := {} }

theorem witness_waking :
    ((asleep 0 0).asking = false ∧ (asleep 0 0).pwr.busy = false ∧ bit (asleep 0 0).pwr.wakeMask 0 = true ∧
      (asleep 2 1).pwr.wakeStep ≠ 0 ∧ (asleep 2 1).asking = false ∧ bit { (asleep 0 0).pwr with wakeMask := 6 }.wakeMask 0 = false ∧
      (asleep 0 0).pwr.sbWakeAddr ≠ 0 ∧ bit (asleep 0 0).pwr.wakeMask 1 = true) ∧
    ({ asleep 3 1 with boot := { awake.boot with copy := 0 } }.recovery = false ∧ (asleep 3 1).hbm.state ≠ 1 ∧
      (asleep 3 1).boot.hbmFailed = false ∧ (asleep 3 1).pwr.ctlOn = false) ∧
    ((asleep 4 1).pwr.rollback = none ∧ (asleep 4 1).pwr.state = .sleep ∧ (asleep 4 1).hbm.state = 2) ∧
    (firmwareOk (asleep 5 1) = true ∧ (asleep 5 1).cmd.pending = [] ∧ (asleep 5 2).pwr.attempt < 3 ∧
      3 ≤ (asleep 5 3).pwr.attempt) ∧
    (railsGood (asleep 1 1) = true ∧ railsGood { asleep 1 1 with pwr := { (asleep 1 1).pwr with rails := [(0, 1)] } } = false ∧
      (asleep 4 1).pwr.state = .sleep ∧ (asleep 5 1).pwr.state = .sleep ∧ (asleep 5 1).boot.step = 0) := by decide

/-- ACTIVE, the HBM in the short training that follows stage 4, in an attempt. -/
def resumeSt (attempt : Nat) : State := { awake with
  pwr := { awake.pwr with hbmTrained := false, hbmResume := true, attempt := attempt }, hbm := { state := 2 } }

theorem witness_hbm_resume :
    (∀ n ∈ [1, 3], (resumeSt n).boot.porstLow = false ∧ (resumeSt n).pwr.wakeStep = 0 ∧ (resumeSt n).pwr.hbmResume = true ∧
      (resumeSt n).hbm.state = 2) ∧
    (resumeSt 1).pwr.attempt < 3 ∧ 3 ≤ (resumeSt 3).pwr.attempt ∧ awake.pwr.hbmResume = false ∧ awake.pwr.wakeStep = 0 := by
  decide

/-- A transition from ACTIVE that asks a block. -/
def askSt (target : PowerState) (block : Nat) : State := { sessSt with
  pwr := { sessSt.pwr with target := target, busy := true, block := block } }

theorem witness_handshake :
    ((askSt .doze 1).asking = true ∧ blockReason (askSt .doze 1) 1 = none ∧
      (handshakeBlocks (askSt .doze 1).pwr.state .doze).find? (1 < ·) = some 2) ∧
    (blockReason (askSt .doze 3) 3 = none ∧ (handshakeBlocks (askSt .doze 3).pwr.state .doze).find? (3 < ·) = some 4) ∧
    (blockReason (askSt .idle 1) 1 = none ∧ (askSt .idle 1).pwr.target = .idle) ∧
    (blockReason { askSt .sleep 6 with hbm := { state := 1 } } 6 = some 5 ∧ (askSt .sleep 6).pwr.agreed = []) ∧
    (let s := { askSt .sleep 2 with cu := { awake.cu with copying := some 3 } }
     s.asking = true ∧ s.pwr.block = 2 ∧ s.pwr.target = .sleep ∧ s.canCopy = false ∧ blockReason s 2 = none) := by decide

/-- The sag in per mille, with stages 1 and 2 in force up to `low` and others latched. -/
def sagSt (sag low : Nat) (latched : List Nat) : State := { awake with pwr := { awake.pwr with sag := sag, low := low, latched := latched } }

set_option maxRecDepth 20000 in set_option synthInstance.maxSize 2000 in
theorem witness_shedding :
    (awake.eff 0x0B06 = 1 ∧ awake.asking = false) ∧
    (∀ k ∈ [1, 2, 3], shedEnter awake k ≤ (sagSt 900 (k - 1) []).pwr.sag ∧ (sagSt 900 (k - 1) []).inStage k = false ∧
      (sagSt 900 (k - 1) []).pwr.state ≠ .sleep ∧ ∀ j, j < 4 → 1 ≤ j → j < k → (sagSt 900 (k - 1) []).inStage j = true) ∧
    (∀ k ∈ [1, 2], (sagSt 0 k [4, 3]).pwr.sag < shedEnter (sagSt 0 k [4, 3]) k - shedHyst (sagSt 0 k [4, 3]) k ∧
      shedEnter (sagSt 900 k []) k - shedHyst (sagSt 900 k []) k ≤ (sagSt 900 k []).pwr.sag) ∧
    ((sagSt 0 0 [4, 3]).inStage 5 = false ∧ (sagSt 0 0 [4, 3]).pwr.busy = false ∧ (sagSt 0 0 [4, 3]).pwr.rollback = none ∧
      (asleep 5 1).inStage 5 = false ∧ (sagSt 0 0 [3]).inStage 3 = true) ∧
    (awake.eff 0x0B09 < 115 ∧ (0 : Int) < (awake.eff 0x0B09 : Int)) := by decide

/-- The oscillator in use while the crystal is tried. -/
def rcSt : State := { awake with pwr := { awake.pwr with slowXtal := false, xtalTrying := true } }

theorem witness_clocks :
    awake.boot.porstLow = false ∧ awake.pwr.slowXtal = true ∧ rcSt.pwr.slowXtal = false ∧ rcSt.pwr.xtalTrying = true ∧
      rcSt.pwr.slowSrc = 0 ∧ awake.pwr.xtalTrying = false ∧ awake.hbmClocked = true ∧ awake.pwr.ctlOn = true ∧
      awake.inStage 5 = false ∧ awake.pwr.busy = false ∧ awake.pwr.rollback = none ∧ (asleep 0 0).pwr.ctlOn = false ∧
      (asleep 5 1).pwr.ctlOn = true ∧ { asleep 5 1 with hbm := { state := 4 } }.hbmClocked = false := by decide

/-! ### Witnesses of the statements on ingest, time bases and the Management Port -/

/-- `progSt` with half-port 0 UP on Ethernet, DEV_IPV4 and MP_IPV4 set, PTP on its UDP for base 1 and a PPS base 2. -/
def ethSt : State := { progSt with
  set := { runtime := [(0x0302, 0x0A000001), (0x0310, 0x0A000002), (0x0510, 1), (0x0511, 0), (0x0520, 3), (0x0307, 0)] }
  hps := [(0, { state := .up, trained := 1 })]
  mp := { state := .up }
  tbs := [(1, { mode := .unset }), (2, { mode := .locked, count := 7 * 10 ^ 9 * 2 ^ 32 + 5 })] }

/-- A UDP frame to half-port 0. -/
def ethUdp (dst port : Nat) (data : Bytes) : Bytes :=
  ethFrame dst 0x0200000000AA none 0x0800 (udpPacket 64 0 0x0A0000AA 0x0A000001 5000 port data)

/-- An ingest packet of a path: index, count and samples (04 R82). -/
def ingestP (path x n : Nat) (data : Bytes) : Bytes :=
  be 2 0x4749 ++ [1, 0] ++ be 2 path ++ be 2 0 ++ be 8 x ++ be 4 n ++ zeros 12 ++ data

def ingestPort : Nat := ethSt.eff 0x0303

set_option maxRecDepth 100000 in set_option synthInstance.maxSize 2000 in
theorem witness_frames :
    ethSt.ctlLive = true ∧ ethSt.ethIn 0 = true ∧
      rxFate ethSt 0 (ethUdp (ethSt.macOf 0) ingestPort (ingestP 0 0 0 [])) = .ingest (ingestP 0 0 0 []) ∧
      rxFate ethSt 0 (ethUdp 3 ingestPort []) = .drop .notForDevice ∧ rxFate ethSt 0 (zeros 20) = .drop .runt ∧
      rxFate ethSt 0 (zeros 64) = .drop .fcs ∧ ethSt.eff 0x0307 = 0 ∧
      262144 < (ethSt.hp 0).held + 300000 ∧ (ethSt.hp 0).held + 9000 ≤ 262144 := by decide

set_option maxRecDepth 100000 in set_option synthInstance.maxSize 2000 in
theorem witness_frames_ptp :
    (∃ m, rxFate ethSt 0 (ethUdp (ethSt.macOf 0) 319 (zeros 34)) = .ptp false m) ∧
      rxFate { ethSt with set := { runtime := [(0x0302, 0x0A000001), (0x0320, 1)] } } 0
        (ethUdp (ethSt.macOf 0) (ethSt.eff 0x0304) packet20) =
          .command { host with transport := .halfPort, mac := 0x0200000000AA, ip := 0x0A0000AA } packet20 :=
  ⟨⟨zeros 34, by decide⟩, by decide⟩

/-- `ethSt` with a payload in half-port 0's buffer, and TB1 at 1 s. -/
def heldFrame (payload : Bytes) : State := { ethSt with
  hps := [(0, { state := .up, trained := 1, buffer := [{ length := 100, oldest := some 0, payload := payload }] })]
  tbs := [(1, { mode := .locked, count := 10 ^ 9 * 2 ^ 32 })]
  ing := { paths := [(0, { lastSeen := some 0 })] } }

set_option maxRecDepth 100000 in set_option synthInstance.maxSize 2000 in
theorem witness_drain :
    (∀ b ∈ [zeros 32, ingestP 0 0 0 [], ingestP 1 0 0 [], ingestP 0 64 64 (zeros 64)],
      (heldFrame b).coreLive = true ∧ nextDrain (heldFrame b) = some 0 ∧ (heldFrame b).slotIn .inEffect = some 0 ∧
      ((heldFrame b).slot 0).prog = some aProg) ∧
    (0 ∈ aProg.localPaths ∧ 1 ∉ aProg.localPaths ∧ formatDefined aProg.format = true ∧
      packetShapeOk aProg.format (ingestP 0 64 64 (zeros 64)) = true ∧ (heldFrame []).judge 64 64 = some (0, aProg)) ∧
    (nextDrain ethSt = none ∧ (tget (heldFrame []).ing.paths 0 {}).lastSeen = some 0 ∧ (heldFrame []).eff 0x0306 ≠ 0 ∧
      ((heldFrame []).tb ((heldFrame []).eff 0x0544)).hasTime = true ∧ 0 + (heldFrame []).eff 0x0306 * 10 ^ 6 ≤ 10 ^ 9) := by
  decide

/-- A frame to the Management Port: an ARP request, an echo request and a UDP packet. -/
def mpArp : Bytes := ethFrame 0xFFFFFFFFFFFF 0x0200000000AA none 0x0806 (arpPacket 1 0x0200000000AA 0x0A0000AA 0 0x0A000002)
def mpIcmp (kind : Nat) : Bytes :=
  let head := be 2 kind ++ [0, 0, 0, 1, 0, 2]
  let ip := [0x45, 0] ++ be 2 28 ++ [0, 0, 0x40, 0, 64, 1] ++ [0, 0] ++ be 4 0x0A0000AA ++ be 4 0x0A000002
  ethFrame ethSt.macBase 0x0200000000AA none 0x0800
    (ip.take 10 ++ be 2 (inetSum ip) ++ ip.drop 12 ++ head.take 2 ++ be 2 (inetSum head) ++ head.drop 4)
def mpUdp : Bytes :=
  ethFrame ethSt.macBase 0x0200000000AA none 0x0800
    (udpPacket 64 0 0x0A0000AA 0x0A000002 5000 (ethSt.eff 0x0304) packet20)

set_option maxRecDepth 100000 in set_option synthInstance.maxSize 2000 in
theorem witness_management_port :
    ethSt.boot.porstLow = false ∧ ethSt.mp.state = .up ∧ mpFate ethSt mpArp = .arp 0x0200000000AA 0x0200000000AA 0x0A0000AA none ∧
      mpFate ethSt (zeros 64) = .drop .fcs ∧ mpFate ethSt (ethUdp 1 0 []) = .drop .notForDevice ∧
      mpFate ethSt (mpIcmp 0) = .icmpDrop ∧ ethSt.mp.pllLocked = true ∧ ethSt.eff 0x0310 ≠ 0 ∧
      { awake with set := { runtime := [(0x0310, 0)] } }.eff 0x0310 = 0 := by
  decide

set_option maxRecDepth 100000 in set_option synthInstance.maxSize 2000 in
theorem witness_management_port_replies :
    mpFate ethSt (mpIcmp 0x0800) = .echo 0x0200000000AA 0x0A0000AA none (be 2 0x0800 ++ [0xF7, 0xFC, 0, 1, 0, 2]) ∧
      mpFate ethSt mpUdp =
        .command { host with hp := 255, mac := 0x0200000000AA, ip := 0x0A0000AA } packet20 := by decide

/-- A PTP message of a type, with flags, from the clock 42 port 1, with sequenceId 7 (02 R23). -/
def ptpMsg (kind flags : Nat) (body : Bytes) : Bytes :=
  be 1 kind ++ [2] ++ be 2 (34 + body.length) ++ [0, 0] ++ be 2 flags ++ zeros 12 ++ be 8 42 ++ be 2 1 ++ be 2 7 ++ [0, 0] ++ body

/-- `ethSt` with base 1 following the clock 42; it has a Sync waiting and one that was followed up, and a Delay_Req out. -/
def ptpSt : State := ethSt.onTb 1 fun b => { b with
  master := some (42, 1), syncWait := [(7, 1000, 0, 0, 0)], syncLast := some (5, 9, true), delayReq := some (7, 100), delaySent := 8 }

set_option maxRecDepth 100000 in set_option synthInstance.maxSize 2000 in
theorem witness_ptp :
    ptpSt.ptpLive 0 = true ∧
    (∀ m ∈ [ptpMsg 0 0x200 (zeros 10), ptpMsg 0 0 (zeros 10), ptpMsg 8 0 (zeros 10), ptpMsg 11 0 (zeros 30),
      ptpMsg 9 0 (zeros 20)], 34 ≤ m.length ∧ ptpWellFormed m = true ∧
      (ptpSt.ptpBases 0 (b2n false)).filter (fun k => (ptpSt.tb k).mode != .disabled && ptpSt.tbKey k 2 == fld m 4 1) = [1] ∧
      (ptpSt.tb 1).master = some (ptpSource m)) ∧
    (ptpTwoStep (ptpMsg 0 0x200 (zeros 10)) = true ∧ ptpTwoStep (ptpMsg 0 0 (zeros 10)) = false ∧ (ethSt.tb 1).pathDelay = none ∧
      (ethSt.tb 1).delayPair = none) ∧
    (((ethSt.tb 1).syncWait.find? fun w => w.1 == 7) = none ∧
      ((ptpSt.tb 1).syncWait.find? fun w => w.1 == 7 && decide (1 ≤ w.2.2.2.2 + 10 ^ 9)) = some (7, 1000, 0, 0, 0)) ∧
    (let m := ptpMsg 9 0 (zeros 10 ++ be 8 (ownIdentity ptpSt 0).1 ++ be 2 (ownIdentity ptpSt 0).2)
     (fld m 44 8, fld m 52 2) = ownIdentity ptpSt 0 ∧ (ethSt.tb 1).sentSeq (ptpSeq m) = false ∧
       (ptpSt.tb 1).sentSeq (ptpSeq m) = true ∧
       ((ptpSt.onTb 1 fun b => { b with delayReq := none }).tb 1).delayReq = none ∧
       ((ptpSt.onTb 1 fun b => { b with delayReq := none }).tb 1).sentSeq (ptpSeq m) = true ∧
       (ptpSt.tb 1).delayReq = some (ptpSeq m, 100) ∧ (ptpSt.tb 1).syncLast = some (5, 9, true)) ∧
    (ptpSt.tbKey 1 0 = 1 ∧ ptpSt.tbKey 1 1 = 0 ∧ (ptpSt.tb 1).master ≠ none ∧ (ptpSt.tb 1).mode ≠ .disabled) := by decide

/-- Base 2 alone on PPS_IN, in a mode, with a waiting step and an offset in counts. -/
def ppsSt (m : TbMode) (w : Option StepWait) (frac : Nat) : State := { awake with
  set := { runtime := [(0x0500, 0), (0x0510, 0), (0x0520, 3), (0x0530, 0), (0x0528, 0), (0x052C, 1)] }
  tbs := [(2, { mode := m, count := 7 * 10 ^ 9 * 2 ^ 32 + frac, stepWait := w, ppsLast := some 0 })] }

set_option maxRecDepth 100000 in set_option synthInstance.maxSize 2000 in
theorem witness_pulses :
    awake.ctlLive = true ∧ (ppsSt .locked none 0).onPps 2 = true ∧
      (∀ k, k < 4 → k ≠ 2 → (ppsSt .locked none 0).onPps k = false) ∧
    (((ppsSt .unset (some (.first 9)) 0).tb 2).stepWait = some (.first 9) ∧
      ((ppsSt .locked (some (.restep 9)) 0).tb 2).stepWait = some (.restep 9)) ∧
    ((ppsSt .unset none 0).tbKey 2 8 = 0 ∧ ((ppsSt .unset none 0).tb 2).mode = .unset) ∧
    (((ppsSt .locked none 5).tb 2).hasTime = true ∧ (5 * 250 : Int).natAbs ≤ (ppsSt .locked none 0).tbKey 2 5 * (2 ^ 33 * 125) ∧
      (ppsSt .locked none 0).tbKey 2 5 * (2 ^ 33 * 125) < (10 ^ 9 * 2 ^ 31 * 250 : Int).natAbs) ∧
    ((ppsSt .locked none 0).tbKey 2 0xC = 1 ∧ ((ppsSt .locked none 0).tb 2).ppsHold = none ∧ awake.tbKey 2 0xC = 0) ∧
    (((ppsSt .locked none 0).onTb 2 fun b => { b with ppsOut := some (8 * 10 ^ 9 * 2 ^ 32) }).tb 2).ppsOut =
      some (8 * 10 ^ 9 * 2 ^ 32) := by decide

/-- Base 0 with source 2 and its reference missing. -/
def refSt : State := { awake with
  set := { runtime := [(0x0500, 2)] }, tbs := [(0, { mode := .locked, refMissing := true, ppsLast := some 0 })] }

theorem witness_lost_sources :
    (refSt.tb 0).mode = .locked ∧ refSt.onPps 0 = true ∧ (refSt.tb 0).ppsLast = some 0 ∧ refSt.tbKey 0 0 = 2 ∧
      (refSt.tb 0).refMissing = true ∧ refSt.tbKey 1 0 ≠ 2 ∧
      ((refSt.onTb 0 fun b => { b with refMissing := false }).tb 0).refMissing = false := by decide

/-- Alarms 4 and 5 of base 1 reached, alarm 15 of a base without time; periods 0 and 1,000 ns. -/
def alarmSt : State := { awake with
  tbs := [(1, { mode := .locked, count := 10 ^ 9 * 2 ^ 32 })]
  alarms := [(4, { time := 0, period := 0, mask := 7, groups := 3 }), (5, { time := 1, period := 1000, mask := 1, groups := 0 }),
             (15, { time := 0, period := 0, mask := 7, groups := 0 })] }

theorem witness_alarms :
    (tfind alarmSt.alarms 4).isSome = true ∧ (tfind alarmSt.alarms 5).isSome = true ∧ (tfind alarmSt.alarms 15).isSome = true ∧
      (alarmSt.tb 1).hasTime = true ∧ (alarmSt.tb 3).hasTime = false := by decide

/-- `progSt` with base 1 at a time in ns and orbit 0 the oldest open one. -/
def orbSt (ns : Nat) : State := { progSt with
  set := { runtime := [(0x0540, 0)] }
  tbs := [(1, { mode := .locked, count := ns * 2 ^ 32 })], orb := { oldest := some 0 }, ct := { frame := some 0 } }

set_option maxRecDepth 100000 in
theorem witness_orbits :
    (orbSt 0).orb.oldest = some 0 ∧ (orbSt 0).ct.frame = some 0 ∧ lastDue (orbSt 0) (deadlinePassed (orbSt 0) 0) 0 0 4 = none ∧
      (lastDue (orbSt 1000000000) (deadlinePassed (orbSt 1000000000) 0) 0 0 4).isSome = true ∧ progSt.ct.frame = none ∧
      (orbSt 1000000000).ct.frame = some 0 := by decide

set_option maxRecDepth 100000 in
theorem witness_orbit_stamps :
    0 ∈ (List.range 4).flatMap (fun b => stampsDue (orbSt 0) b ((orbSt 0).countBefore b 0)) ∧
      (List.range 4).flatMap (fun b => stampsDue awake b (awake.countBefore b 0)) = [] := by decide

/-! ### Witnesses of the statements on half-ports and Midway -/

/-- Half-ports 0 and 1 configured by a word, half-port 0 in a state with a Midway link, and both UP where it is a full port. -/
def mwSt (cfg : Nat) (x : LinkState) (m : MwLink) : State := { progSt with
  set := { runtime := [(0x0200, cfg), (0x0201, cfg), (0x0407, 1), (0x0404, 0)] }
  hps := [(0, { state := x, trained := cfg, mw := m }), (1, { state := x, trained := cfg })] }

/-- Half-port 0 awaits HP_RETRY_MS after failures in a row. -/
def retrySt (cfg fails : Nat) : State := (mwSt cfg .training {}).onHp 0 fun p => { p with retryWait := true, fails := fails }

/-- Half-port 0 of a full port awaits a new attempt as a port of its own; its partner is in FAULT. -/
def leftSt : State := { retrySt 5 0 with
  set := { runtime := [(0x0200, 4), (0x0201, 4)] }
  hps := [(0, { (retrySt 5 0).hp 0 with trained := 5 }), (1, { state := .fault, trained := 5 })] }

set_option maxRecDepth 20000 in set_option synthInstance.maxSize 2000 in
theorem witness_training :
    (mwSt 4 .training {}).portLive 0 = true ∧
    (((retrySt 4 0).hp 0).state = .training ∧ ((retrySt 4 0).hp 0).retryWait = true ∧ ((retrySt 4 0).hp 0).stopped = false ∧
      ((retrySt 4 0).hp 0).loopKind = 0 ∧ cfgMode ((retrySt 4 0).hpConfig 0) ≠ 0 ∧ (retrySt 4 0).waitsPartner 0 = false ∧
      0 / 16 ∉ (retrySt 4 0).refsLost ∧ (retrySt 0 0).cfgGroup 0 = [0] ∧ cfgMode ((retrySt 0 0).hpConfig 0) = 0 ∧
      (retrySt 5 0).cfgGroup 0 = [0, 1] ∧ (retrySt 5 0).hpGroup 0 = [0, 1] ∧ (retrySt 5 0).leftPartner 0 = [] ∧
      1 ∈ leftSt.leftPartner 0 ∧ (leftSt.hp 1).state = .fault ∧ leftSt.portLive 0 = true ∧
      0 / 16 ∈ { retrySt 4 0 with refsLost := [0] }.refsLost) ∧
    (((mwSt 5 .training {}).hp 1).retryWait = false ∧ ((retrySt 5 0).hp 0).retryWait = true) ∧
    (((mwSt 4 .training {}).hp 0).retryWait = false ∧ ((mwSt 4 .training {}).hp 0).midway = true ∧
      ((mwSt 1 .training {}).hp 0).midway = false ∧
      ((mwSt 4 .training { seenSent := true, seenByPartner := true }).hp 0).mw.seenByPartner = true) ∧
    ((mwSt 1 .training {}).eff 0x0284 = 16 ∧ ((mwSt 1 .training {}).hp 0).fails + 1 < (mwSt 1 .training {}).eff 0x0284) := by
  decide

/-- Lane reference 0 lost, half-port 0 in FAULT. -/
def refLostSt : State := { mwSt 1 .fault {} with refsLost := [0] }

theorem witness_lane_references :
    (mwSt 1 .up {}).boot.porstLow = false ∧ (mwSt 1 .up {}).mp.pllLocked = true ∧
      ((refLostSt.onHp 0 fun p => { p with stopped := true }).hp 0).stopped = true ∧ (refLostSt.hp 0).stopped = false ∧
      7 < refsOf (mwSt 1 .up {}).fuses.variant ∧ 0 ∈ refLostSt.refsLost ∧
      (refLostSt.hp 0).state = .fault ∧ cfgMode (refLostSt.hpConfig 0) ≠ 0 ∧ refLostSt.waitsPartner 0 = false ∧
      0 ∉ (mwSt 1 .up {}).refsLost := by decide

/-- Half-port 0 UP, its lane 3 with an eye figure; a scan of lane 3, for which LANE_EYE is pending. -/
def eyeSt (eye : Nat) : State := (mwSt 1 .up {}).onHp 0 fun p => { p with lanes := [(3, { eye := eye })] }
def scanSt : State := { (eyeSt 200).onHp 0 (fun p => { p with scanLane := some 3 }) with
  cmd := { sessSt.cmd with pending := [pendingOf 0 (.laneEye 3)] } }

/-- Half-port 0 in a near-end loopback. -/
def loopedSt : State := (mwSt 1 .loopback {}).onHp 0 fun p => { p with loopKind := 1 }

set_option maxRecDepth 20000 in set_option synthInstance.maxSize 2000 in
theorem witness_link_losses :
    ((mwSt 1 .up {}).portLive (3 / 4) = true ∧ ((mwSt 1 .up {}).hp 0).rxIdle = false ∧ ((mwSt 1 .up {}).hp 0).state ≠ .off ∧
      ((mwSt 4 .up {}).onHp 0 fun p => { p with rxIdle := true }).hp 0 ≠ (mwSt 4 .up {}).hp 0 ∧
      ((mwSt 1 .off {}).hp 0).state = .off) ∧
    (((mwSt 1 .up {}).hp 0).inService = true ∧ ((mwSt 6 .test {}).hp 0).inService = true ∧
      ((mwSt 1 .training {}).hp 0).inService = false ∧ ((mwSt 1 .up {}).hp 0).nearLoop = false ∧
      (loopedSt.hp 0).nearLoop = true ∧ loopedSt.portLive 0 = true) ∧
    ((eyeSt 0).boot.porstLow = false ∧ (eyeSt 0).mp.state = .up) ∧
    (((eyeSt 0).hp 0).inService = true ∧ ((eyeSt 0).lane 3).eye < (eyeSt 0).eff 0x0281 ∧ (eyeSt 200).eff 0x0281 ≤ ((eyeSt 200).lane 3).eye) ∧
    (((eyeSt 200).hp 0).inService = true ∧ ((eyeSt 200).hp 0).scanLane = none ∧ (eyeSt 200).eff 0x0280 ≤ 200 ∧
      min 255 (4 * min 0 9) < (eyeSt 200).eff 0x0280) ∧
    ((scanSt.hp 0).scanLane = some (3 % 4) ∧
      (scanSt.cmd.pending.find? fun c => c.work == .laneEye 3) = some (pendingOf 0 (.laneEye 3))) ∧
    cfgFec ((mwSt 0x11 .up {}).hp 0).trained = true := by decide

/-- A link UP whose directions are in electrical idle since cycle 0. -/
def idleSt (tx rx : Bool) (cycle : Nat) : State := { (mwSt 4 .up {}).onHp 0 (fun p => { p with txIdle := tx, rxIdle := rx }) with
  cycle := cycle }

set_option maxRecDepth 20000 in set_option synthInstance.maxSize 2000 in
theorem witness_electrical_idle :
    ((idleSt false false 5).mwUp ((idleSt false false 5).linkOf 0) = true ∧ (idleSt false false 5).eff 0x0407 = 1 ∧
      mwQuiet (idleSt false false 5) 0 = true ∧ ((idleSt false false 5).hp 0).txIdle = false) ∧
    (((idleSt true true 5).hp 0).rxIdle = true ∧ ((idleSt true true 5).hp 0).txIdle = true ∧
      5 ≤ ((idleSt true true 5).hp 0).idleSince + (idleSt true true 5).eff 0x0285 * 10 ^ 6) ∧
    ((idleSt true true (10 ^ 12)).hp 0).idleSince + (idleSt true true (10 ^ 12)).eff 0x0285 * 10 ^ 6 < 10 ^ 12 ∧
    ((mwSt 4 .up {}).portLive 0 = true ∧ ((mwSt 4 .up {}).hp 0).midway = true ∧ ((mwSt 4 .up {}).hp 0).stopped = false ∧
      ((mwSt 4 .up {}).hp 0).loopKind = 0 ∧ cfgMode ((mwSt 4 .up {}).hpConfig 0) ≠ 0 ∧
      (mwSt 4 .up {}).waitsPartner 0 = false ∧ 0 / 16 ∉ (mwSt 4 .up {}).refsLost) ∧
    ((mwSt 6 .test {}).portLive 0 = true ∧ ((mwSt 6 .test {}).hp 0).state = .test ∧ ((mwSt 6 .test {}).hp 0).stopped = false ∧
      ((mwSt 6 .test {}).hp 0).loopKind = 0 ∧ cfgMode ((mwSt 6 .test {}).hpConfig 0) ≠ 0 ∧
      (mwSt 6 .test {}).waitsPartner 0 = false ∧ 0 / 16 ∉ (mwSt 6 .test {}).refsLost) := by decide

/-- A block's body of 6 bytes with its CRC-8. -/
def body7 (b : Bytes) : Bytes := b ++ be 1 (crc8 b)

/-- A link training, of own device 1 in mesh 7; with two frames for replay. -/
def trainMw : MwLink := { ownDevice := 1, ownMesh := 7 }
def replayMw : MwLink := { trainMw with
  trainedOnce := true, nextSeq := 5
  replay := [{ seq := 3, orbit := 0, bytes := [1] }, { seq := 4, orbit := 0, bytes := [2] }] }

/-- All lanes but lane 3 have named another LANE. -/
def lastMw : MwLink := { trainMw with lanesSeen := [(0, 3), (1, 2), (2, 1)] }

set_option maxRecDepth 20000 in set_option synthInstance.maxSize 2000 in
theorem witness_midway_training :
    (mwSt 4 .training trainMw).mwTraining ((mwSt 4 .training trainMw).linkOf 0) = true ∧ bodyOk (zeros 6 ++ [1]) = false ∧
    (let b := body7 [0, 2, 0, 7, 0, 0]
     bodyOk b = true ∧ bits (fld b 0 7) 47 32 ≠ trainMw.ownMesh) ∧
    (lanesOrdered lastMw.lanesSeen 4 = false ∧ lastMw.seenSent = false ∧ lanesOrdered (tput lastMw.lanesSeen 3 0) 4 = true) ∧
    (let b := body7 [2, 0, 7, 0, 0, 0]
     bodyOk b = true ∧ bits (fld b 0 7) 47 32 = trainMw.ownMesh ∧ bit (fld b 0 7) 26 = false ∧
       bits (fld b 0 7) 52 48 ≠ trainMw.ownDevice ∧ bits (fld b 0 7) 55 53 < 4) ∧
    (trainMw.trainedOnce = false ∧ replayMw.partnerReset = false ∧ replayMw.trainedOnce = true ∧
      replayStale (mwSt 4 .training replayMw) replayMw = false) ∧
    (let b := body7 [0, 4, 0, 0, 0, 0]
     bodyOk b = true ∧ (fld b 0 2 + 2 ^ 16 - 3) % 2 ^ 16 ≤ (5 + 2 ^ 16 - 3) % 2 ^ 16 ∧
       (replayMw.expected + 2 ^ 16 - fld b 2 2) % 2 ^ 16 ≤ (mwSt 4 .training replayMw).linkBuffers 0) ∧
    (let b := body7 [0, 6, 0, 0, 0, 0]
     bodyOk b = true ∧ ¬(fld b 0 2 + 2 ^ 16 - 3) % 2 ^ 16 ≤ (5 + 2 ^ 16 - 3) % 2 ^ 16) := by
  decide

/-- A LINK block's body that acknowledges a frame, with a credit and flags. -/
def linkBody (ack credit flags : Nat) : Bytes := body7 (be 2 ack ++ be 2 credit ++ be 1 flags ++ [0])

set_option maxRecDepth 20000 in set_option synthInstance.maxSize 2000 in
theorem witness_midway_link_blocks :
    ((mwSt 4 .up replayMw).mwUp ((mwSt 4 .up replayMw).linkOf 0) = true ∧ bodyOk (linkBody 3 69 1) = true ∧
      bit (fld (linkBody 3 69 1) 4 1) 0 = true ∧ replayMw.nakActed ≠ some 3 ∧ ackTo (3 + 1) replayMw.replay ≠ []) ∧
    (((mwSt 4 .up replayMw).hp 0).txIdle = false ∧ (mwSt 4 .up {}).eff 0x0404 = 0 ∧
      ((mwSt 4 .up {}).hp 0).mw.replay = [] ∧ replayMw.blocks < 31 ∧ { replayMw with blocks := 31 }.blocks = 31) ∧
    (replayMw.replay ≠ [] ∧ replayMw.resends < (mwSt 4 .up {}).eff 0x0403 ∧
      (mwSt 4 .up {}).eff 0x0403 ≤ { replayMw with resends := 99 }.resends) ∧
    ((mwSt 4 .training {}).portLive 0 = true ∧ ((mwSt 4 .training {}).hp 0).midway = true ∧
      ((mwSt 4 .training {}).hp 0).mw.peerLost = false) := by decide

/-- A staged frame of orbit 0. -/
def stagedMw : MwLink := { trainMw with staged := [{ close := false, orbit := 0, offset := 0, payload := [1, 2, 3, 4] }] }

/-- A received CLOSE or DATA frame of a link: its SEQ, orbit and 4 words. -/
def rxFrame (close : Bool) (seq orbit : Nat) : Bytes :=
  let n := if close then 4 else 1
  let head := be 8 ((if close then 2 else 1) * 2 ^ 62 + seq * 2 ^ 46 + n * 2 ^ 36 + orbit % 16 * 2 ^ 32)
  let b := head ++ (if close then be 8 orbit ++ zeros 8 else zeros 4)
  b ++ be 4 (crc32c b)

/-- `mwSt` with a programme that lists half-port 0's link, whose frame 3 is the oldest open one. -/
def listedSt (m : MwLink) : State := { mwSt 4 .up m with
  prg := { slots := [(0, { state := .inEffect, generation := 9, prog := some { aProg with
    links := [{ hp := 0, peer := 2, tx := [], rx := [] }] } })], frame := some 0 }
  ct := { frame := some 3 } }

set_option maxRecDepth 20000 in set_option synthInstance.maxSize 2000 in
theorem witness_midway_frames :
    ((mwSt 4 .up stagedMw).mwUp 0 = true ∧ ((mwSt 4 .up stagedMw).hp 0).txIdle = false ∧ stagedMw.wrongPeer = false) ∧
    (({ replayMw with resendFrom := some 4 }.replay.find? fun (x : MwFrame) => x.seq == 4).isSome = true ∧ stagedMw.resendFrom = none ∧
      (mwSt 4 .up stagedMw).orb.oldest = some 0 ∧ 1 ≤ (stagedMw.creditLimit + 2 ^ 16 - stagedMw.nextSeq) % 2 ^ 16 ∧
      stagedMw.replay.length < (mwSt 4 .up stagedMw).linkBuffers 0 ∧
      ({ stagedMw with creditLimit := 0 }.creditLimit + 2 ^ 16 - stagedMw.nextSeq) % 2 ^ 16 = 0 ∧
      { mwSt 4 .up replayMw with orb := { oldest := some 4 } }.orb.oldest = some 4 ∧
      (replayMw.replay.map fun x => (x.orbit, x.emptied)) = [(0, false), (0, false)]) ∧
    (∀ f ∈ [rxFrame true 0 2, rxFrame true 0 3, rxFrame false 0 5, rxFrame false 0 11],
      12 + 4 * bits (fld f 0 8) 45 36 ≤ f.length ∧
      fld f (8 + 4 * bits (fld f 0 8) 45 36) 4 = crc32c (f.take (8 + 4 * bits (fld f 0 8) 45 36)) ∧
      bits (fld f 0 8) 61 46 = trainMw.expected) ∧
    (bits (fld (rxFrame true 0 2) 0 8) 63 62 = 2 ∧ fld (slice (rxFrame true 0 2) 8 16) 0 8 = 2 ∧
      bits (fld (rxFrame false 0 5) 0 8) 63 62 = 1 ∧ bits (fld (rxFrame false 0 5) 0 8) 35 32 = 5) ∧
    ((trainMw.granted + 2 ^ 16 - 0) % 2 ^ 16 = 64 ∧ ({ trainMw with granted := 0 }.granted + 2 ^ 16 - 0) % 2 ^ 16 = 0 ∧
      ((listedSt trainMw).linkRecord 0).isSome = true ∧ ((listedSt { trainMw with wrongPeer := true }).linkRecord 0).isSome = true ∧ (mwSt 4 .up trainMw).linkRecord 0 = none ∧
      (listedSt trainMw).ct.frame = some 3 ∧ orbitDistance 3 2 < 8 ∧ 8 ≤ orbitDistance 3 5) := by decide

/-! ### Witnesses of the statements on the channeliser, the memory, acts and DMA -/

/-- `progSt` whose orbit 0 is closed at ingest, and its frame 0 at the owner, or not. -/
def chanRdy (closed : Bool) : State := { progSt with
  orb := { oldest := some (if closed then 1 else 0) }, ct := { frame := some (if closed then 1 else 0) } }

def aPath : ProgPath := aProg.paths.getD 0
  { path := 0, flags := 0, slFirShift := 0, ncoInc := 0, ncoPhase0 := 0, slReqShift := 0, fbFirShift := 0, fbReqShift := 0 }

/-- Frame 0 closed at the owner, whose stage A is past it. -/
def pastSt : State := { chanRdy true with ch := { paths := [(0, { runA := 1, nextA := some (10 ^ 6) })] } }

set_option maxRecDepth 20000 in set_option synthInstance.maxSize 2000 in
theorem witness_channeliser :
    (∀ c, stageA (chanRdy c) 0 = some (1, aProg, 0) ∧ stageB (chanRdy c) 0 0 = some (1, aProg, 0)) ∧
    ((aProg.paths.find? fun r => r.path == 0) = some aPath ∧ aProg.ordinal 0 = some 0 ∧ aProg.sigma 0 = some 0) ∧
    (blockReady (chanRdy true) aProg 0 0 = true ∧ blockReady (chanRdy false) aProg 0 0 = false ∧
      stageB pastSt 0 0 = some (1, aProg, 0) ∧
      fineReady pastSt aProg 0 0 0 = true ∧ fineReady (chanRdy false) aProg 0 0 0 = false) := by decide

/-- A run of block 4 of the corner-turn ring; 3 of the block's 4 runs accepted before it. -/
def aRun : QueuedRun := { gen := 9, path := 0, kappa := 0, block := 4, sub := 3, bytes := List.replicate 192 1 }
def runSt (e : RingEntry) : State := { progSt with ct := {
  wbuf := [aRun], dir := [(0, [(0, e)])], accepted := [(9, [(blockKey 4 0 0, 3)])], valid := [(9, [(blockKey 4 0 0, true)])] } }

/-- `s` whose bucket of a port is in debt in its cycle. -/
def drained (port : Nat) (s : State) : State := { s with hbm := { s.hbm with buckets := [(port, { tenths := -9, cycle := s.cycle })] } }

/-- A schedule to be read, and a block of one line for group 0 at the Carousel's root, to which engine 0 subscribes. -/
def aBlock : CarouselBlock := { id := { gen := 9, frame := 0, group := 0, kappa := 0, r := 0 }, vector := 0, lines := [[1, 2]] }
def readSt : State := { progSt with car := { runs := [{ gen := 9, frame := 0, act := 0, entries := [
  { chFirst := 0, chCount := 1, groupFirst := 0, groupCount := 1 }] }] } }
def rootSt (fill : Nat) : State := { engWith (fun g => { g with
    subscr := [(0, 0)], cl := [(0, 4)], rings := [(0, { wpos := 0, fill := fill })] }) with
  car := { root := some aBlock } }

/-- The block has waited for engine 0 since cycle 4. -/
def heldRoot : State := { rootSt 4 with car := { root := some aBlock, heldSince := some 4, heldBy := [(0, 0)] } }

set_option maxRecDepth 20000 in set_option synthInstance.maxSize 2000 in
theorem witness_corner_turn :
    ((runSt {}).eligible 0 192 = true ∧ aRun.bytes.length = 192 ∧ (drained 0 (runSt {})).eligible 0 192 = false ∧
      readSt.granted 1 readSt.nextRead = true ∧ (drained 1 readSt).granted 1 (drained 1 readSt).nextRead = false ∧
      (runSt {}).ct.wbuf = [aRun] ∧ (runSt {}).progGen aRun.gen = some aProg ∧
      (aProg.region 1).isSome = true ∧ (aProg.region 2).isSome = true) ∧
    (((runSt {}).ringEntry 0 (4 % 4)).state = 0 ∧ ((runSt { state := 2, block := 0 }).ringEntry 0 (4 % 4)).state ≠ 0 ∧
      ((runSt { state := 2, block := 0 }).ringEntry 0 (4 % 4)).block ≠ aRun.block ∧
      tget (tget (runSt {}).ct.accepted 9 []) (blockKey 4 0 0) 0 + 1 = 4 * aProg.c) ∧
    (readSt.coreLive = true ∧ readSt.car.root = none ∧ (∃ r, readSt.car.runs = [r] ∧ r.block = some aBlock.id)) ∧
    ((rootSt 3).coreLive = true ∧ (rootSt 3).car.root = some aBlock ∧ allDiffer ((rootSt 3).engines.map (·.1)) = true ∧
      (0, 0) ∈ subscribers (rootSt 3) aBlock.id.group ∧ ringRoom ((rootSt 3).eng 0) 0 1 = true ∧
      ringRoom ((rootSt 4).eng 0) 0 1 = false ∧ heldRoot.car.heldSince = some 4 ∧
      allDiffer (heldRoot.car.heldBy.map (·.1)) = true ∧ 0 ∈ heldRoot.car.heldBy.map (·.1) ∧
      (engWith fun g => { g with subscr := [(0, 0)] }).eng 0 ≠ (rootSt 3).eng 0) :=
  ⟨by decide, by decide, ⟨by decide, by decide, _, rfl, by decide⟩, by decide⟩

/-- The capture ARMED; FROZEN; with a run waiting, its orbit begun over one channel and path. -/
def capRunSt : State := { progSt with
  set := { runtime := [(0x0704, 1)] }
  cap := { state := 1, wbuf := [aRun] }
  ch := { begun := some 4, begunTerms := [(4, { freeze := false, chFirst := 0, chCount := 1, pathFirst := 0, pathCount := 1, post := 2 })] } }

set_option maxRecDepth 20000 in set_option synthInstance.maxSize 2000 in
theorem witness_hbm_and_capture :
    (awake.hbm.state = 0 ∧ frozenSt.hbm.state ≠ 0 ∧ hbmCapacity awake.fuses.variant - 1 < hbmCapacity awake.fuses.variant ∧
      3 < stacksOf awake.fuses.variant ∧ awake.pwr.hbmTrained = true ∧ awake.eff 0x0700 = 1 ∧
      awake.grantedLow 6 64 = true ∧ frozenSt.grantedLow 6 64 = false ∧ awake.prg.loading = none ∧ loadSt.prg.loading.isSome = true ∧ frozenSt.hbm.state = 1 ∧ (asleep 0 0).hbm.state = 4 ∧
      { awake with set := { runtime := [(0x0700, 0)] } }.eff 0x0700 = 0) ∧
    (capRunSt.ctlLive = true ∧ State.reset.ctlLive = false ∧ capRunSt.cap.state = 1 ∧ (capSt 3).cap.state ≠ 1 ∧ captureHeld (sagSt 0 1 []) = true) ∧
    (captureHeld capRunSt = false ∧ capRunSt.cap.wbuf = [aRun] ∧ capRunSt.progGen aRun.gen = some aProg ∧
      (tfind capRunSt.ch.begunTerms (aRun.block * 256 / aProg.n)).isSome = true ∧ (aProg.region 5).isSome = true ∧
      (aProg.region 6).isSome = true ∧ capRunSt.hbm.state = 0 ∧ capRunSt.grantedLow 5 192 = true ∧
      (drained 5 capRunSt).grantedLow 5 192 = false ∧ capRunSt.cycle ≤ aRun.since + 2000 ∧
      aRun.since + 2000 < { capRunSt with cycle := 2001 }.cycle) := by decide

/-- Programme slot 1 ARMED for orbit 2 beside or without the one in effect in slot 0, with an oldest open orbit. -/
def armedSt (effect : Bool) (oldest : Nat) : State := { progSt with
  prg := { slots := (if effect then [(0, { state := .inEffect, generation := 9, prog := some aProg })] else []) ++
    [(1, { state := .armed, generation := 10, swapOrbit := 2, prog := some { aProg with generation := 10 } })], frame := some 0 }
  orb := { oldest := if effect then some oldest else none } }

/-- Slot 0 RETIRING after frame 3; the reader has reached a frame. -/
def retiringSt (frame : Nat) : State := { progSt with
  engines := [(0, { loaded := true, gen := 9, waito := true })]
  prg := { slots := [(0, { state := .retiring, generation := 9, prog := some aProg, endOrbit := some 3, lastFrame := some 2, tailEnd := 3 })], frame := some frame } }

/-- Slot 0 halted at orbit 4, its tail window to end with frame 5. -/
def tailSt : State := { progSt with
  prg := { slots := [(0, { state := .retiring, generation := 9, prog := some aProg, haltOrbit := some 4, endOrbit := some 4
                           lastFrame := some 3, tailAt := 4, tailEnd := 5 })], frame := some 3 } }

/-- Slot 0 in effect with a halt orbit. -/
def haltingSt : State := { progSt with
  prg := { slots := [(0, { state := .inEffect, generation := 9, prog := some aProg, haltOrbit := some 7 })], frame := some 0 }
  orb := { oldest := some 4 } }

/-- Slot 1 ARMED for orbit 9, at which slot 0 halts. -/
def farSt (n : Nat) : State := { haltingSt with prg := { slots :=
  [(0, { state := .inEffect, generation := 9, prog := some aProg, haltOrbit := some n, run := 1 }),
   (1, { state := .armed, generation := 10, swapOrbit := 9, prog := some { aProg with generation := 10 } })], runs := 1, frame := some 0 } }

/-- The programme in effect with no frame begun, frame 0 closed at the owner and delivered by stage B, or not. -/
def readable (b : Bool) : State := { progSt with
  prg := { slots := progSt.prg.slots, runs := 1, frame := none }, ct := { frame := some 1 }
  ch := { fine := [(0, { runB := 1, next := some (if b then 256 else 255) })] } }

set_option maxRecDepth 20000 in set_option synthInstance.maxSize 2000 in
theorem witness_programme_swap :
    ((armedSt true 0).coreLive = true ∧ (armedSt true 0).slotIn .armed = some 1 ∧ (armedSt true 0).slotIn .inEffect = some 0 ∧
      ((armedSt true 0).slot 0).haltOrbit = none ∧ (armedSt true 0).mayReach 2 = true ∧
      (armedSt false 0).slotIn .inEffect = none ∧ (armedSt false 0).slotIn .armed = some 1) ∧
    ((armedSt true 0).mayReach 2 = true ∧ (farSt 9).slotIn .armed = some 1 ∧ (farSt 9).slotIn .inEffect = some 0 ∧
      ((farSt 9).slot 0).haltOrbit = some 9 ∧ ((farSt 9).slot 1).swapOrbit = 9 ∧ (farSt 9).mayReach 9 = false) ∧
    (haltingSt.slotIn .inEffect = some 0 ∧ (haltingSt.slot 0).haltOrbit = some 7 ∧ haltingSt.mayReach 7 = true ∧
      haltingSt.slotIn .armed = none) ∧
    ((retiringSt 4).slotIn .retiring = some 0 ∧ ((retiringSt 4).slot 0).haltDump = false ∧
      ((retiringSt 4).slot 0).state = .retiring ∧ windowEnded (retiringSt 4) 0 = true ∧
      generationDone (retiringSt 4) ((retiringSt 4).slot 0).generation = true ∧ windowEnded (retiringSt 3) 0 = false) ∧
    (haltTail tailSt = some 0 ∧ tailSt.coreLive = true ∧ tailSt.hbm.state = 0 ∧ tailSt.car.runs = []) ∧
    (∀ b, (readable b).hbm.state = 0 ∧ (readable b).car.runs = [] ∧ haltTail (readable b) = none ∧ (readable b).nextFrame = some 0 ∧
      (readable b).slotAt 0 = some 0 ∧ frameReadable (readable b) aProg 0 = b) := by
  decide

/-- A copy of 64 bytes with END within the HBM, from address 128 to address 256. -/
def copyDesc : Bytes := [0, 1, 1, 0] ++ be 4 64 ++ be 8 128 ++ be 8 256 ++ zeros 8

/-- Channel 5 runs that copy: nothing read yet; all of it read and in flight. -/
def copySt : State := { awake with dma := { channels := [(5, { state := 1, desc := some copyDesc })] } }
def landCh : DmaChannel :=
  { state := 1, desc := some copyDesc, readBytes := 64
    inFlight := [{ offset := 0, length := 64, damaged := false, data := List.replicate 64 7 }] }
def landSt : State := { awake with dma := { order := [5], channels := [(5, landCh)] } }

def loadBurst : DmaBurst := { offset := 0, length := 1, data := [0x47], damaged := false }
/-- The load of channel 62 under a programme that gives DMA_WR no share. -/
def noShare : State := { progSt with
  prg := { progSt.prg with slots := [(0, { state := .inEffect, generation := 9, prog := some { aProg with shares := [1, 1, 0, 1, 1] } })]
                           loading := some (.image 2 0 [0x47]) }
  dma := loadSt.dma }

set_option maxRecDepth 20000 in set_option synthInstance.maxSize 2000 in
theorem witness_dma_bursts :
    (copySt.dmaLive = true ∧ (List.range 64).filter (burstReady (setLevels [] (copySt.advance 0))) = [5] ∧
      burstWaits (setLevels [] (copySt.advance 0)) 5 = none ∧ dMode copyDesc = 0 ∧ wSpace (dSrc copyDesc) = 0 ∧
      ((setLevels [] (copySt.advance 0)).dch 5).start = none ∧ copySt.hbm.bad = [] ∧
      (List.range 64).filter (burstReady (setLevels [] (awake.advance 0))) = [] ∧ State.reset.dmaLive = false) ∧
    (landSt.dma.order = [5] ∧ landSt.granted 2 64 = true ∧ landSt.dmaLive = true ∧ (landSt.dch 5).inFlight.length = 1 ∧ wSpace (dDst copyDesc) = 0 ∧
      memWf 0 landSt.hbm.mem = true ∧ dLength copyDesc ≤ (landSt.dch 5).written + 64 ∧ dEnd copyDesc = true ∧
      (landSt.dch 5).hbmBad = false ∧ (landSt.dch 5).waiting = [] ∧ awake.dma.order = []) ∧
    (writesHbm copyDesc = true ∧ landCh.cut = false ∧
      { landSt with hbm := { state := 1 } }.granted 2 (burstWrites landSt 5 landCh copyDesc (landCh.inFlight.headD loadBurst)) = false ∧
      (drained 2 { progSt with dma := landSt.dma }).granted 2 64 = false ∧
      (drained 2 { progSt with dma := landSt.dma }).portShare 2 ≠ some 0 ∧ noShare.portShare 2 = some 0 ∧ noShare.granted 2 1 = false ∧
      noShare.dma.order = [62] ∧ writesHbm (loadCh.desc.getD []) = true ∧ landCh.written + 64 < dLength [0, 1, 1, 0, 0, 0, 0, 65]) := by
  decide

/-- Channel 60 with a descriptor held; idle at END; waiting for a BUSY slot since cycle 0. -/
def linkSt (x : DmaChannel) : State := { awake with dma := { channels := [(60, x)] }, cycle := 10 ^ 9 }

set_option maxRecDepth 20000 in
theorem witness_dma_registers :
    ((linkSt {}).progOwned 60 = false ∧ (60 : Nat) < 63 ∧ (linkSt {}).ctlLive = true ∧ State.reset.ctlLive = false ∧
      ((linkSt {}).dch 60).desc = none ∧ ((linkSt {}).dch 60).state = 0) ∧
    (let x : DmaChannel := { state := 1, desc := some endDesc, current := 3, linkExpect := 3 }
     (linkSt x).dch 60 = x ∧ x.current = x.linkExpect) ∧
    (let x : DmaChannel := { state := 6, current := 3, linkExpect := 3 }
     (linkSt x).dch 60 = x ∧ 4095 < (4096 : Nat) ∧ (chanSt { x with linkExpect := 4095 }).ctlLive = true ∧
       dEnd ((chanSt {}).hostDesc 4095) = true ∧ dEnd ((linkSt {}).hostDesc 3) = false) ∧
    (let x : DmaChannel := { state := 5, current := 3, linkExpect := 3 }
     (linkSt x).dch 60 = x ∧ x.desc = none) ∧
    (let x : DmaChannel := { state := 1, waitSince := some 0 }
     ((linkSt x).dch 60).waitSince = some 0 ∧ 0 + (linkSt x).eff 0x0A00 * 1000 < (linkSt x).cycle + 0 ∧ x.waitLong = false ∧
       x.waitKind < 2 ∧ bit x.cause 6 = false) := by decide

/-! ### Witnesses of the statements on events and the control bus -/

/-- An event record queued since cycle 0, with a collector behind half-port 0 or none. -/
def queuedEv (collector : Bool) : State := { ethSt with
  set := { runtime := [(0x0302, 0x0A000001), (0x0D00, 0), (0x0D03, if collector then 1 else 0)] }
  ev := { queue := [{ event := 960, cause := 0, cycle := 0 }] }, cycle := 10 ^ 9 }

/-- The same with the Management Port as the collector's. -/
def mpEv : State := { queuedEv true with set := { runtime := [(0x0310, 0x0A000002), (0x0D00, 255), (0x0D03, 1)] } }

set_option maxRecDepth 20000 in set_option synthInstance.maxSize 2000 in
theorem witness_event_tree :
    eventPresent awake.fuses.variant 960 = true ∧ (queuedEv true).boot.porstLow = false ∧ (queuedEv true).pwr.state ≠ .sleep ∧
      (queuedEv true).ev.queue ≠ [] ∧
      (queuedEv true).ev.holdCycle + 1000 * (queuedEv true).eff 0x0D05 ≤ (queuedEv true).cycle + 0 ∧
      eventPort (queuedEv true) = some 0 ∧ eventPort (queuedEv false) = none ∧ awake.ev.queue = [] ∧
      eventPort mpEv = some 255 ∧ (queuedEv true).dmaLive = true ∧ ((queuedEv true).dch 63).state = 0 ∧
      (let u := startEventPacket 0 (eventPacket (queuedEv true)) (takeRecords (queuedEv true))
       grantChannel u u.startable = some 63) ∧
      (let s := { queuedEv true with dma := { channels := [(5, { state := 1, desc := some copyDesc })] } }
       let u := startEventPacket 0 (eventPacket s) (takeRecords s)
       grantChannel u u.startable = some 5) ∧
      ({ queuedEv true with dma := { channels := [(63, { state := 1 })] } }.dch 63).state = 1 := by decide

/-- The first address of control SRAM, seen by every master (15 Table 15.2). -/
def sramA : Nat := 0x08000000

/-- A read of an engine's register outstanding in DOZE. -/
def dozeBusSt : State := { awake with
  pwr := { awake.pwr with state := .doze, target := .doze }
  bus := { outstanding := [(4, {
    write := false, target := .engines, offset := 64, beats := 4, done := 0, data := [], stops := [] })] } }

set_option maxRecDepth 20000 in set_option synthInstance.maxSize 2000 in
theorem witness_bus_transactions :
    (∀ m ∈ [0, 1, 2, 4, 5], masterLive awake m = true ∧ tfind awake.bus.outstanding m = none ∧ memWf 0 awake.bus.sram = true) ∧
    (busFormOk sramA 16 = true ∧ busFormOk (sramA + 60) 1 = true ∧ busDest awake 4 false sramA = .served .sram 0 ∧
      busDest awake 4 true (sramA + 60) = .served .sram 60) ∧
    (busDest awake 4 false 0xFFFFFFFC = .nowhere ∧ busFormOk 0xFFFFFFFC 1 = true ∧ busDest awake 1 true 0x30000000 = .denied) ∧
    (awake.bus.requests = [] ∧ busHolder .sram awake = false ∧ busHolder .rom awake = false ∧ busHolder .localA awake = false ∧
      busHolder .localB awake = false ∧ busHolder .sram openBusSt = true ∧ masterLive openBusSt 5 = true ∧
      tfind openBusSt.bus.outstanding 5 = none ∧ busDest openBusSt 5 false sramA = .served .sram 0 ∧
      busDest awake 0 false 0 = .served .rom 0 ∧ ¬(({ awake with bus := openBusSt.bus } : State).bus.outstanding = [])) ∧
    ((tfind openBusSt.bus.outstanding 4).isSome = true ∧ openBusSt.bus.requests = [] ∧ tfind awake.bus.outstanding 4 = none) ∧
    (awake.ctlLive = true ∧ awake.bus.outstanding = [] ∧ State.reset.ctlLive = false ∧ openBusSt.bus.outstanding ≠ []) ∧
    ((tfind dozeBusSt.bus.outstanding 4).isSome = true ∧ dozeBusSt.answers .engines = false) := by decide

set_option maxRecDepth 20000 in set_option synthInstance.maxSize 2000 in
theorem witness_register_writes :
    awake.bus.closed = [] ∧ sramA % 4 = 0 ∧ sramA < 2 ^ 32 ∧ busDest awake 5 true sramA = .served .sram 0 ∧
      masterPresent awake.fuses.variant 5 = true ∧ awake.cu.held = true ∧ awake.cu.holder = 0 ∧
      { awake with cu := { awake.cu with held := false } }.cu.held = false ∧
      masterLive { awake with cu := { awake.cu with held := false } } 1 = true := by decide

/-! ### Witnesses of the statements on the Ringmasters -/

/-- `awake` with a commit address in control SRAM. -/
def commitSt : State := { awake with cu := { awake.cu with commitAddr := sramA, commitData := 3 } }

/-- A switchover whose epoch has, or has not, been committed. -/
def releasing (committed : Bool) : State := { awake with
  cu := { awake.cu with switchover := some { epoch := 1, committed := committed, reclaim := true } } }

set_option maxRecDepth 20000 in
theorem witness_ringmaster_registers :
    (∀ m ∈ [0, 1], masterLive awake m = true) ∧ awake.bus.requests = [] ∧ awake.bus.closed = [] ∧ (awake.unit 0).kickHalf = false ∧ ((awake.onUnit 1 fun x => { x with kickHalf := true }).unit 1).kickHalf = true ∧
      (awake.cu.held = true ∧ awake.cu.holder = 0 ∧ awake.cu.commitAddr = 0) ∧
      (masterLive commitSt 0 = true ∧ commitSt.cu.commitAddr ≠ 0 ∧ busDest commitSt 0 true commitSt.cu.commitAddr = .served .sram (4 * 0) ∧
        memWf 0 commitSt.bus.sram = true) ∧
      ((awake.unit (1 - 0)).state = .standby ∧ awake.cu.switchover = none ∧ ¬(awake.cu.held = true ∧ awake.cu.holder = 1)) ∧
      ((releasing true).releaseDue = true ∧ (releasing false).releaseDue = false ∧ (releasing false).cu.switchover.isSome = true ∧
        (releasing false).cu.held = true ∧ masterLive (releasing false) 0 = true) := by decide

/-- Unit 1 held in reset with its repair due; unit 1 BOOTING. -/
def repairSt : State := { awake.onUnit 1 fun x => { x with state := .off, inReset := true, repairDue := true } with
  boot := { awake.boot with copy := 2 } }
def bootingSt : State := awake.onUnit 1 fun x => { x with state := .booting }

set_option maxRecDepth 20000 in
theorem witness_unit_resets :
    ((awake.unit 0).inReset = false ∧ (awake.unit 0).repairing = false ∧ (awake.unit 0).state ∈ [CuState.standby, .active, .isolated] ∧
      canClaim awake (1 - 0) = true) ∧
    ((repairSt.unit 1).inReset = true ∧ (repairSt.unit 1).repairDue = true ∧ repairSt.bothFailed = false ∧
      { awake with cu := { units := [(0, { state := .failed }), (1, { state := .failed })] } }.bothFailed = true ∧ firmwareOk repairSt = true ∧ repairSt.cu.held = true) ∧
    ((bootingSt.unit 1).state = .booting ∧ (bootingSt.unit 1).restartFails + 1 < bootingSt.eff 0x0E05 ∧
      bootingSt.working (fun w => w == .resync 1) = false ∧ (awake.unit 1).repairDue = false) := by decide

/-- A unit that sees one path, or none. -/
def seeSt (u : Nat) (mailbox wire : Bool) : State := awake.onUnit u fun x => { x with seesMailbox := mailbox, seesWire := wire }

/-- Unit 0 sees one path again after both were lost. -/
def lostSt : State := (seeSt 0 false true).onUnit 0 fun x => { x with bothLost := true }

/-- The baton released; with a planned switchover under way, committed or not. -/
def freeSt : State := { awake with
  cu := { units := [(0, { state := .syncing, inReset := false }), (1, { state := .standby, inReset := false })], passing := true } }
def holeEntry : JournalEntry :=
  { jsn := 9, orbit := 0, stamp := {}, session := 8, seq := 1, opcode := 0x11, status := 0, unit := 0, digest := 0, paramLength := 0
    kind := 0, transport := 0, generation := 0, detail := [] }
def holeSt : State := { freeSt with cmd := { freeSt.cmd with journal := [holeEntry] } }
def switchSt (committed : Bool) : State := { freeSt with cu := { freeSt.cu with
  switchover := some { epoch := 1, committed := committed, reclaim := true } } }

set_option maxRecDepth 20000 in
theorem witness_heartbeats_and_baton :
    ((awake.unit 0).runs = true ∧ (awake.unit 1).runs = true ∧ (awake.unit 0).sees 0 = true ∧ (awake.unit 0).sees (1 - 0) = true) ∧
    (((seeSt 0 true false).unit 0).sees 0 = true ∧ ((seeSt 0 true false).unit 0).sees (1 - 0) = false ∧
      ((seeSt 0 true false).unit 0).sees 1 = false ∧ ((seeSt 1 true false).unit 1).state = .standby ∧
      (lostSt.unit 0).state = .active ∧ lostSt.cu.copying = none ∧ (lostSt.unit 0).bothLost = true ∧
      (lostSt.unit 0).sees 0 = false ∧ (lostSt.unit 0).sees (1 - 0) = true ∧ (lostSt.unit 0).reclaimDue = false ∧
      ((seeSt 0 false true).unit 0).bothLost = false) ∧
    (freeSt.cu.held = false ∧ freeSt.cu.passing = true ∧ canClaim freeSt 1 = true ∧ freeSt.cmd.pending = [] ∧
      freeSt.cu.switchover = none ∧ replayOk freeSt 0 = true ∧ freeSt.newestEpoch = none ∧ freeSt.uncovered = none ∧
      replayOk holeSt 0 = false ∧ holeSt.newestEpoch = none ∧ canClaim holeSt 1 = true) ∧
    (∀ c, (switchSt c).cu.switchover = some { epoch := 1, committed := c, reclaim := true } ∧
      (switchSt c).working (fun w => w == .switchover) = false) := by decide

/-- Buffer 0 holds epoch 4 of unit 0, the newest; unit 1 in a state with an older epoch. -/
def epochSt (x : CuState) : State := { awake with cu := { awake.cu with
  units := [(0, { state := .active, inReset := false }), (1, { state := x, inReset := false, copyEpoch := 3 })]
  buffers := [(0, { complete := true, number := 4, jsn := 2, writer := 0 })], nextEpoch := 5 } }

set_option maxRecDepth 20000 in
theorem witness_epochs :
    ((epochSt .standby).ctlLive = true ∧ (epochSt .standby).cu.held = true ∧ (tget (epochSt .standby).cu.buffers 0 {}).complete = true ∧
      (epochSt .standby).newestEpoch = some (tget (epochSt .standby).cu.buffers 0 {}) ∧
      ((epochSt .standby).unit 0).state = .active ∧ (epochSt .standby).cu.copying = none ∧
      (tget (epochSt .standby).cu.buffers 1 {}).complete = false) ∧
    (∀ x ∈ [CuState.standby, .syncing], (epochSt x).cu.holder ≠ 1 ∧ ((epochSt x).unit 1).state = x ∧
      ((epochSt x).unit 1).copyEpoch < 4 ∧ (epochSt x).cu.switchover = none ∧
      (epochSt x).working (fun w => w == .resync 1) = false ∧ ((epochSt x).unit 0).reclaimDue = false) := by decide

/-- Record 3 waits to be shadowed by unit 1; records up to a JSN have been overwritten. -/
def shadowSt (lost : Nat) : State := { awake with cu := { awake.cu with
  store := [{ jsn := 3, digest := 0, params := [] }], storeLost := lost } }

set_option maxRecDepth 20000 in
theorem witness_shadow_and_selftest :
    ((shadowSt 0).cu.holder ≠ 1 ∧ ((shadowSt 0).unit 1).state = .standby ∧ ((shadowSt 0).unit 1).shadowStop = false ∧
      (nextShadow (shadowSt 0) 1).isSome = true ∧ ((shadowSt 1).unit 1).shadowJsn < (shadowSt 1).cu.storeLost ∧
      nextShadow awake 1 = none) ∧
    ((awake.unit 1).retryStep = none ∧ ((awake.onUnit 1 fun x => { x with retryStep := some 4 }).unit 1).retryStep ≠ none ∧
      (bootingSt.unit 1).state ∉ [CuState.standby, .isolated, .active]) := by decide

/-! ### Witnesses of the statements on Calliope and on idle steps -/

/-- A strobe of every group taken at cycle 0 that makes channel 2's configuration active; channel 1 forced. -/
def strobeSt : State := { awake with
  cycle := 9
  cal := { safeRead := true
           channels := [(1, { forced := true, cause := 1 }), (2, { waiting := some { mode := 2, group := 1, divider := 4 } })]
           strobes := [{ groups := 255, cycle := 0, configs := [(2, { mode := 1, phase0 := 5 })] }] } }

/-- Channel 0 in a mode with a queue. -/
def dacSt (mode : Nat) (queue : List Int) : State := { awake with
  cal := { safeRead := true, channels := [(0, { active := { mode := mode, divider := 2 }, queue := queue })] } }

set_option maxRecDepth 20000 in
theorem witness_calliope :
    (strobeSt.ctlLive = true ∧ 0x101 % 256 ≠ 0 ∧ 0x100 % 256 = 0 ∧
      { awake with set := { runtime := [(0x0C04, 3)] } }.eff 0x0C04 % 256 ≠ 0) ∧
    (-8191 ≤ toSigned 16 (bits 0x1FFFE001 31 16) ∧ toSigned 16 (bits 0x1FFFE001 31 16) ≤ 8191 ∧
      -8191 ≤ toSigned 16 (bits 0x1FFFE001 15 0) ∧ toSigned 16 (bits 0x20000000 31 16) > 8191) ∧
    (strobeSt.cal.strobes.length = 1 ∧ 4 * ((0 + 11) / 4) ≤ strobeSt.cycle + 0 ∧ (strobeSt.calCh 1).forced = true ∧
      strobeSt.pwr.low = 0 ∧ bit 255 (strobeSt.calCh 2).active.group = true) ∧
    (((dacSt 2 [5, 6]).calCh 0).active.mode = 2 ∧ ((dacSt 2 [5, 6]).calCh 0).forced = false ∧
      4 * ((dacSt 2 []).calCh 0).due ≤ (dacSt 2 []).cycle + 0 ∧ ((dacSt 2 []).calCh 0).queue = [] ∧
      ((dacSt 1 []).calCh 0).active.mode = 1) := by decide

/-- Half-port 0 in a near-end loopback with a frame of its own to receive. -/
def loopSt : State := { awake with hps := [(0, { state := .loopback, loopKind := 1, trained := 1, looped := [zeros 64] })] }

theorem witness_idle :
    State.reset.pending = [] ∧ State.reset.server = none ∧ crowdedSt.server = some 0 ∧ crowdedSt.pending = [] ∧
      crowdedSt.cmd.queue ≠ [] ∧ State.reset.loopedPort = none ∧ loopSt.server = some 0 ∧ loopSt.cmd.queue = [] ∧
      loopSt.pending = [] ∧ loopSt.loopedPort = some 0 := by decide

theorem witness_invariants : MemoriesOk State.reset ∧ step State.reset = .next (tick State.reset) := ⟨by decide, rfl⟩

/-- A state whose fault record is full. -/
def fullRecord : State :=
  { State.reset with ev := { State.reset.ev with faults := (List.range 64).map fun n => (n, newFault State.reset 704 { loc := [n] }) } }
set_option maxRecDepth 20000 in
/-- Meets the hypotheses of FullFaultRecord, both clauses of the routes among them, and shows its effect. -/
theorem test_full_fault_record :
    eventPresent fullRecord.fuses.variant 913 = true ∧ (∀ i, i < 64 → (tfind fullRecord.ev.faults i).isSome = true) ∧
    heldFault fullRecord.ev.faults 913 locDie = none ∧ (fullRecord.route 964).getLsbD 3 = false ∧
    (fullRecord.route 965).getLsbD 3 = false ∧ (raiseFault 913 { loc := locDie } fullRecord).ev.overflows = 1 := by decide

/-! ### WellFormed refuses an ill-formed term of each check, and takes the highest well-formed one -/

theorem test_wf_engine : (Instr.nop 511).wf = true ∧ (Instr.nop 512).wf = false := by decide
theorem test_wf_register : (Instr.jr 0 15).wf = true ∧ (Instr.jr 0 16).wf = false ∧ (Instr.mulw 0 3 0 0).wf = false := by decide
theorem test_wf_address_register : (Instr.movga 0 0 7).wf = true ∧ (Instr.movga 0 0 8).wf = false := by decide
theorem test_wf_slot : (Instr.tclr 0 41).wf = true ∧ (Instr.tclr 0 42).wf = false := by decide
theorem test_wf_code : (Instr.br 0 4095).wf = true ∧ (Instr.br 0 4096).wf = false := by decide
theorem test_wf_signed : (Instr.addi 0 0 0 131071).wf = true ∧ (Instr.addi 0 0 0 131072).wf = false ∧
    (Instr.adda 0 0 (-32768)).wf = true ∧ (Instr.adda 0 0 (-32769)).wf = false := by decide
theorem test_wf_loops : (Instr.repeatLoop 0 1 63 65535).wf = true ∧ (Instr.repeatLoop 0 2 0 0).wf = false ∧
    (Instr.repeatLoop 0 0 64 0).wf = false ∧ (Instr.repeatLoop 0 0 0 65536).wf = false := by decide
theorem test_wf_parity_bit : (Instr.trel 0 0 (some 31)).wf = true ∧ (Instr.trel 0 0 (some 32)).wf = false := by decide
theorem test_wf_channel : (Instr.dkick 0 63).wf = true ∧ (Instr.dkick 0 64).wf = false := by decide
theorem test_wf_port : (Instr.hpRetryTimer 127).wf = true ∧ (Instr.hpRetryTimer 128).wf = false := by decide
theorem test_wf_lane : (Instr.eyeFail 511).wf = true ∧ (Instr.eyeFail 512).wf = false := by decide
theorem test_wf_unit : (Instr.batonClaim 1).wf = true ∧ (Instr.batonClaim 2).wf = false ∧ (Instr.heartbeatPathLost 0 2).wf = false := by
  decide
theorem test_wf_master : (Instr.release 5).wf = true ∧ (Instr.release 6).wf = false := by decide
theorem test_wf_path : (Instr.slicerBlock 2047).wf = true ∧ (Instr.slicerBlock 2048).wf = false ∧
    (Instr.fineFilterbankBlock 0 256).wf = false := by decide
theorem test_wf_stack : (Instr.hbmRetime 3).wf = true ∧ (Instr.hbmRetime 4).wf = false := by decide
theorem test_wf_base : (Instr.tbSyncTimeout 3).wf = true ∧ (Instr.tbSyncTimeout 4).wf = false := by decide
theorem test_wf_word : (Instr.counterClear (2 ^ 32 - 1)).wf = true ∧ (Instr.counterClear (2 ^ 32)).wf = false ∧
    (Instr.stickyW1c 32 0).wf = false := by decide
theorem test_wf_session : (Instr.sessionTimeout 7).wf = true ∧ (Instr.sessionTimeout 8).wf = false := by decide
theorem test_wf_reference : (Instr.laneReferenceLost 7).wf = true ∧ (Instr.laneReferenceReturn 8).wf = false := by decide
theorem test_wf_stage : (Instr.shedStageEnter 5).wf = true ∧ (Instr.shedStageExit 0).wf = false := by decide
theorem test_wf_ptp_port : (Instr.ptpSync 255 true 0 []).wf = true ∧ (Instr.ptpSync 128 true 0 []).wf = false := by decide

set_option maxRecDepth 100000 in
theorem test_wf_parameters : (Instr.echo hdr (zeros 8960)).wf = true ∧ (Instr.echo hdr (zeros 8961)).wf = false := by decide

/-- Words of Table 8.8 written out field by field, each from bit 31 down (08 R198): opcode, then the fields as the table places
them, and zeros. -/
theorem test_sequencer_words :
    sequencerWord 5 0b000001_0011_0001_0010_00000000000000 = some (.add 5 3 1 2) ∧
    sequencerWord 5 0b001010_0001_0010_111111111111111111 = some (.addi 5 1 2 (-1)) ∧
    sequencerWord 5 0b010011_110_00000_0111_0101_0000000000 = some (.setc 5 6 7 5) ∧
    sequencerWord 5 0b010101_0000_110_0_0111_00_000000000101 = some (.stc 5 6 7 5) ∧
    sequencerWord 5 0b011001_1001_0000000000_100000000001 = some (.bz 5 9 2049) ∧
    sequencerWord 5 0b100000_1_111111_000_0000000000000010 = some (.repeatLoop 5 1 63 2) ∧
    sequencerWord 5 0b101000_101001_0011_0100_1_00000000000 = some (.tacq 5 41 3 4 true) ∧
    sequencerWord 5 0b101100_011_101_101001_0110_1_0_1_0000000 = some (.pass 5 3 5 41 6 true false true) ∧
    sequencerWord 5 0b101110_000_101_101001_000000_1_0000000 = some (.bpass 5 5 41 true) ∧
    sequencerWord 5 0b101111_00000000000000000000_111100 = some (.dkick 5 60) := by decide

/-- A reserved opcode, an unnamed bit and an odd D of MULW spell nothing (08 R198). -/
theorem test_reserved_words :
    sequencerWord 0 0b001110_00000000000000000000000000 = none ∧ sequencerWord 0 1 = none ∧
    sequencerWord 0 0b001101_0001_00000000000000_00000000 = none := by decide

/-- A 32-bit word stands for engine 0's instruction, and a word of another length spells no command. -/
theorem test_table_words : Sys2Proof.decodeTableWord 64 0 = none ∧ State.reset.withFetchWord 64 0 = State.reset ∧
    (State.reset.withFetchWord 32 0).pending = [.nop 0] := ⟨rfl, rfl, rfl⟩

/-! ### Small steps, with values worked out from the spec -/

/-- The state after a command on a state whose queue it is alone in. -/
def after (c : Instr) (s : State) : State := match step { s with pending := [c] } with | .next t => t | _ => s

set_option maxRecDepth 20000 in
/-- g1 = 5 and g2 = -1: the 24-bit sum wraps to 4 (08 Table 8.8). -/
theorem test_add_wraps : (after (.add 0 3 1 2) engSt).gval 0 3 = 4 := by decide
set_option maxRecDepth 20000 in
/-- (-1) * (-1) = 1: the high half of the signed product is 0 (08 R197). -/
theorem test_mulw_signed : (after (.mulw 0 4 2 2) engSt).gval 0 5 = 0 := by decide
set_option maxRecDepth 20000 in
/-- SRA keeps the sign, SHR does not (08 Table 8.8). -/
theorem test_shifts : (after (.sra 0 3 2 1) engSt).gval 0 3 = 0xFFFFFF ∧ (after (.shr 0 3 2 1) engSt).gval 0 3 = 0x07FFFF := by decide
set_option maxRecDepth 20000 in
/-- A STICKY word covers 32 events, the first as the most significant bit (16 Table 16.6). -/
theorem test_sticky_order :
    let s : State := { awake with ev := { sticky := 3 } }
    (after (.stickyW1c 0 0x80000000) s).stickyBit 0 = false ∧ (after (.stickyW1c 0 0x80000000) s).stickyBit 1 = true := by decide
set_option maxRecDepth 20000 in
/-- CRC-32C of "123456789" (the check value of the polynomial that 13 Table 13.2 names). -/
theorem test_crc32c : crc32c [0x31, 0x32, 0x33, 0x34, 0x35, 0x36, 0x37, 0x38, 0x39] = 0xE3069283 := by decide
set_option maxRecDepth 20000 in
/-- A stage-1 entry forces the Calliope channels to their safe codes (17 Table 17.7). -/
theorem test_stage_one_forces : ((after (.shedStageEnter 1) (sagSt 900 0 [])).calCh 0).forced = true := by decide

set_option maxRecDepth 20000 in
/-- A third failure poisons the slot (09 R225). -/
theorem test_third_failure : (((after (.passReplay 0 [(1, 5)]) thirdSt).eng 0).slot aPass.slot).poisoned = true := by decide

end Sys2Proof.Tests
end

/-! SUPPORT. The arithmetic of the sequencer: what an instruction that writes one or two general registers changes, the
24-bit words behind the register operations, and the statement on Table 8.8's arithmetic (08 R195, R197, R198). -/

namespace Sys2Proof.Laws

open Sys2Proof.Machine

/-! ### Words of a width: naturals and integers read as bit vectors -/

theorem ofNat_ofSigned (w : Nat) (i : Int) : BitVec.ofNat w (ofSigned w i) = BitVec.ofInt w i := by
  apply BitVec.eq_of_toNat_eq
  have hpos : (0 : Int) < (2 ^ w : Nat) := by exact_mod_cast Nat.two_pow_pos w
  have hlt : ofSigned w i < 2 ^ w := by
    have hupper := Int.emod_lt_of_pos i hpos
    have hlower := Int.emod_nonneg i (Int.ne_of_gt hpos)
    unfold ofSigned
    omega
  rw [BitVec.toNat_ofNat, Nat.mod_eq_of_lt hlt, BitVec.toNat_ofInt]
  rfl

theorem toSigned_toNat {w : Nat} (x : BitVec (w + 1)) : toSigned (w + 1) x.toNat = x.toInt := by
  have hdouble : 2 ^ (w + 1) = 2 * 2 ^ w := by omega
  rw [toSigned, BitVec.toInt_eq_toNat_cond, Nat.mod_eq_of_lt x.isLt, Nat.add_sub_cancel]
  simp only [hdouble, Nat.mul_lt_mul_left (by decide : 0 < 2)]

/-- A word put together from its high and its low half. -/
theorem ofNat_append_halves (m n v : Nat) :
    (BitVec.ofNat m (v / 2 ^ n) ++ BitVec.ofNat n v : BitVec (m + n)) = BitVec.ofNat (m + n) v := by
  apply BitVec.eq_of_toNat_eq
  rw [BitVec.toNat_append, BitVec.toNat_ofNat, BitVec.toNat_ofNat, BitVec.toNat_ofNat,
    ← Nat.shiftLeft_add_eq_or_of_lt (Nat.mod_lt v (Nat.two_pow_pos n)), Nat.shiftLeft_eq, Nat.pow_add,
    Nat.mul_comm (2 ^ m), Nat.mod_mul, Nat.mul_comm, Nat.add_comm]

/-- The difference of two words, worked out over the integers. -/
theorem ofInt_natCast_sub (w m n : Nat) : BitVec.ofInt w ((m : Int) - n) = BitVec.ofNat w m - BitVec.ofNat w n := by
  rw [Int.sub_eq_add_neg, BitVec.ofInt_add, BitVec.ofInt_neg, BitVec.ofInt_natCast, BitVec.ofInt_natCast,
    BitVec.sub_eq_add_neg]

theorem ofNat_mul_two_pow (w m n : Nat) : BitVec.ofNat w (m * 2 ^ n) = BitVec.ofNat w m <<< n := by
  apply BitVec.eq_of_toNat_eq
  simp [Nat.shiftLeft_eq]

theorem ofNat_toNat_div_two_pow {w : Nat} (x : BitVec w) (n : Nat) : BitVec.ofNat w (x.toNat / 2 ^ n) = x >>> n := by
  rw [← Nat.shiftRight_eq_div_pow, ← BitVec.toNat_ushiftRight, BitVec.ofNat_toNat, BitVec.setWidth_eq]

theorem ofInt_toInt_div_two_pow {w : Nat} (x : BitVec w) (n : Nat) :
    BitVec.ofInt w (x.toInt / (2 ^ n : Nat)) = x.sshiftRight n := by
  rw [BitVec.sshiftRight, Int.shiftRight_eq_div_pow]

theorem ofInt_toInt_mul {w : Nat} (v : Nat) (x y : BitVec w) :
    BitVec.ofInt v (x.toInt * y.toInt) = x.signExtend v * y.signExtend v :=
  BitVec.ofInt_mul ..

/-! ### Registers read as words -/

theorem reg_eq_toNat_gval (s : State) (e r : Nat) : (s.eng e).reg r = (s.gval e r).toNat := by
  simp [State.gval, Engine.reg]

theorem sreg_eq_toInt_gval (s : State) (e r : Nat) : (s.eng e).sreg r = (s.gval e r).toInt := by
  rw [Engine.sreg, reg_eq_toNat_gval, toSigned_toNat]

theorem ofNat_reg_setReg (g : Engine) (d v : Nat) : BitVec.ofNat 24 ((g.setReg d v).reg d) = BitVec.ofNat 24 v := by
  rw [reg_setReg]
  exact BitVec.eq_of_toNat_eq (by simp)

/-! ### What an instruction that writes general registers changes -/

/-- An instruction whose effect on the engine is on the general registers alone. -/
theorem onlyRegs_seqStep {s : State} {e : Nat} (f : Engine → Engine) (h : s.seqReady e = true)
    (hf : f (s.eng e) = { s.eng e with g := (f (s.eng e)).g }) : OnlyRegs e s (seqStep e f s) := by
  obtain ⟨honly, hseq⟩ := seqStep_eng f h
  refine ⟨honly, ?_⟩
  rw [sequenced_g hseq, ← hf]
  exact hseq

/-- The registers after an instruction are those that its effect leaves. -/
theorem gval_seqStep {s : State} {e : Nat} (f : Engine → Engine) (h : s.seqReady e = true) (r : Nat) :
    (seqStep e f s).gval e r = BitVec.ofNat 24 ((f (s.eng e)).reg r) := by
  rw [State.gval, sequenced_reg (seqStep_eng f h).2]

/-- An instruction that writes the word `w`, written as a natural, to one general register. -/
theorem exists_setsReg {s : State} {e d : Nat} {v : Engine → Nat} {w : BitVec 24} {o : Host.Outcome State Fault Refusal}
    (h : s.seqReady e = true) (ho : o = .next (seqStep e (fun g => g.setReg d (v g)) s))
    (hv : BitVec.ofNat 24 (v (s.eng e)) = w) : ∃ t, o = .next t ∧ SetsReg e d w s t :=
  ⟨_, ho, hv ▸ setsReg_seqStep d v h⟩

/-- An instruction that writes two neighbouring registers from the registers before it: both values, and its frame. -/
theorem exists_setsPair {s : State} {e : Nat} {o : Host.Outcome State Fault Refusal} (d : Nat) (v w : Engine → Nat)
    (h : s.seqReady e = true)
    (ho : o = .next (seqStep e (fun g => (g.setReg d (v g)).setReg (d + 1) (w g)) s)) :
    ∃ t, o = .next t ∧ OnlyRegs e s t ∧ t.gval e d = BitVec.ofNat 24 (v (s.eng e)) ∧
      t.gval e (d + 1) = BitVec.ofNat 24 (w (s.eng e)) ∧ ∀ r, r ≠ d → r ≠ d + 1 → t.gval e r = s.gval e r := by
  refine ⟨_, ho, onlyRegs_seqStep _ h rfl, ?_, ?_, fun r hd hd' => ?_⟩ <;> rw [gval_seqStep _ h]
  · rw [reg_setReg_other _ _ _ _ (Nat.succ_ne_self d).symm, ofNat_reg_setReg]
  · rw [ofNat_reg_setReg]
  · rw [reg_setReg_other _ _ _ _ hd', reg_setReg_other _ _ _ _ hd, State.gval]

/-! ### The instructions of Table 8.8, one rule each -/

section

variable {s : State} {e : Nat} (h : s.seqReady e = true) (d a b c : Nat)
include h

theorem exec_add_setsReg : ∃ t, exec (.add e d a b) s = .next t ∧ SetsReg e d (s.gval e a + s.gval e b) s t :=
  exists_setsReg h rfl (BitVec.ofNat_add ..)

theorem exec_sub_setsReg : ∃ t, exec (.sub e d a b) s = .next t ∧ SetsReg e d (s.gval e a - s.gval e b) s t :=
  exists_setsReg h rfl ((ofNat_ofSigned ..).trans (ofInt_natCast_sub ..))

theorem exec_and_setsReg : ∃ t, exec (.and e d a b) s = .next t ∧ SetsReg e d (s.gval e a &&& s.gval e b) s t :=
  exists_setsReg h rfl (BitVec.ofNat_and ..)

theorem exec_or_setsReg : ∃ t, exec (.or e d a b) s = .next t ∧ SetsReg e d (s.gval e a ||| s.gval e b) s t :=
  exists_setsReg h rfl (BitVec.ofNat_or ..)

theorem exec_xor_setsReg : ∃ t, exec (.xor e d a b) s = .next t ∧ SetsReg e d (s.gval e a ^^^ s.gval e b) s t :=
  exists_setsReg h rfl (BitVec.ofNat_xor ..)

theorem exec_shl_setsReg :
    ∃ t, exec (.shl e d a b) s = .next t ∧ SetsReg e d (s.gval e a <<< ((s.gval e b).toNat % 32)) s t := by
  rw [← reg_eq_toNat_gval]
  exact exists_setsReg h rfl (ofNat_mul_two_pow ..)

theorem exec_shr_setsReg :
    ∃ t, exec (.shr e d a b) s = .next t ∧ SetsReg e d (s.gval e a >>> ((s.gval e b).toNat % 32)) s t := by
  refine exists_setsReg h rfl ?_
  rw [reg_eq_toNat_gval, reg_eq_toNat_gval, ofNat_toNat_div_two_pow]

theorem exec_sra_setsReg :
    ∃ t, exec (.sra e d a b) s = .next t ∧ SetsReg e d ((s.gval e a).sshiftRight ((s.gval e b).toNat % 32)) s t := by
  refine exists_setsReg h rfl ?_
  rw [ofNat_ofSigned, sreg_eq_toInt_gval, reg_eq_toNat_gval, ofInt_toInt_div_two_pow]

theorem exec_slt_setsReg :
    ∃ t, exec (.slt e d a b) s = .next t ∧ SetsReg e d (if (s.gval e a).slt (s.gval e b) then 1 else 0) s t := by
  refine exists_setsReg h rfl ?_
  rw [sreg_eq_toInt_gval, sreg_eq_toInt_gval, ← BitVec.slt_eq_decide, b2n]
  split <;> rfl

theorem exec_addi_setsReg (i : Int) :
    ∃ t, exec (.addi e d a i) s = .next t ∧ SetsReg e d (s.gval e a + BitVec.ofInt 24 i) s t := by
  refine exists_setsReg h rfl ?_
  rw [ofNat_ofSigned, BitVec.ofInt_add, BitVec.ofInt_natCast, State.gval]

/-- LUI's operand counts in its low 12 bits: the shift drops the others. -/
theorem exec_lui_setsReg (imm : Nat) :
    ∃ t, exec (.lui e d imm) s = .next t ∧ SetsReg e d (BitVec.ofNat 24 imm <<< 12) s t := by
  refine exists_setsReg h rfl ?_
  rw [← ofNat_mul_two_pow]
  exact BitVec.eq_of_toNat_eq (by simp only [BitVec.toNat_ofNat]; omega)

theorem exec_mul2_sets_low_products : ∃ t, exec (.mul2 e d a b c) s = .next t ∧ OnlyRegs e s t ∧
    t.gval e d = s.gval e a * s.gval e b ∧ t.gval e (d + 1) = s.gval e a * s.gval e c ∧
    ∀ r, r ≠ d → r ≠ d + 1 → t.gval e r = s.gval e r := by
  obtain ⟨t, ht, hregs, hfirst, hsecond, hothers⟩ := exists_setsPair (o := exec (.mul2 e d a b c) s) d _ _ h rfl
  exact ⟨t, ht, hregs, hfirst.trans (BitVec.ofNat_mul ..), hsecond.trans (BitVec.ofNat_mul ..), hothers⟩

theorem exec_mulw_sets_signed_product : ∃ t, exec (.mulw e d a b) s = .next t ∧ OnlyRegs e s t ∧
    (t.gval e (d + 1) ++ t.gval e d : BitVec (24 + 24)) =
      (s.gval e a).signExtend (24 + 24) * (s.gval e b).signExtend (24 + 24) ∧
    ∀ r, r ≠ d → r ≠ d + 1 → t.gval e r = s.gval e r := by
  obtain ⟨t, ht, hregs, hlow, hhigh, hothers⟩ := exists_setsPair (o := exec (.mulw e d a b) s) d
    (fun g => ofSigned 48 (g.sreg a * g.sreg b)) (fun g => ofSigned 48 (g.sreg a * g.sreg b) / 2 ^ 24) h rfl
  refine ⟨t, ht, hregs, ?_, hothers⟩
  rw [hlow, hhigh, ofNat_append_halves, ofNat_ofSigned, sreg_eq_toInt_gval, sreg_eq_toInt_gval, ofInt_toInt_mul]

end

/-- Settles O5, from the rule of each instruction. -/
theorem engineArithmetic : Obligations.EngineArithmetic := by
  refine ⟨fun s e d a b imm i h => ?_, fun s e d a b c h => ?_⟩
  · exact ⟨exec_add_setsReg h d a b, exec_sub_setsReg h d a b, exec_and_setsReg h d a b, exec_or_setsReg h d a b,
      exec_xor_setsReg h d a b, exec_shl_setsReg h d a b, exec_shr_setsReg h d a b, exec_sra_setsReg h d a b,
      exec_slt_setsReg h d a b, exec_addi_setsReg h d a i, exec_lui_setsReg h d imm⟩
  · exact ⟨exec_mul2_sets_low_products h d a b c, exec_mulw_sets_signed_product h d a b⟩

end Sys2Proof.Laws

/-! SUPPORT. The full fault record: what an occurrence does to a fault record without an empty slot, and what the events of
its overflow, EV_FAULT_RECORD_FULL (964) and EV_EVENT_PACKET_LOST (965), can still change there (16 R374, R376, R377). -/

namespace Sys2Proof.Laws

open Sys2Proof.Machine

/-! ### The stages of an occurrence -/

/-- The occurrence counted, and its packet record queued where the route asks for one; also says whether it was dropped. -/
def queueStage (e cause : Nat) (s : State) : State × Bool :=
  if !s.stickyBit e && (s.route e).getLsbD 2 then queueRecord e cause (countOccurrence e s) else (countOccurrence e s, false)

/-- The fault entered into the record of `q` where its rule, or the route of its event in `s`, asks for it; also says
whether it found no empty slot. -/
def recordStage (e : Nat) (f : FaultSpec) (s q : State) : State × Bool :=
  if f.always || (!s.stickyBit e && (s.route e).getLsbD 3) then recordFault e f q else (q, false)

/-- Event `e` raised of itself, if the stage before it says so. -/
def raiseIf (b : Bool) (fuel e : Nat) (s : State) : State := if b then occur fuel e 0 none s else s

/-- An occurrence is its stages in turn. -/
theorem occur_succ_of_present {e : Nat} {s : State} (h : eventPresent s.fuses.variant e = true) (n cause : Nat)
    (f : Option FaultSpec) :
    occur (n + 1) e cause f s =
      let q := queueStage e cause s
      let r := recordStage e (f.getD { loc := sourceLocation e, always := false }) s q.1
      raiseIf r.2 n 964 (raiseIf q.2 n 965 r.1) := by
  rw [occur, if_pos h]
  rfl

/-- Counting and queueing an occurrence leave the fault record and the routes alone. -/
theorem queueStage_fields (e cause : Nat) (s : State) :
    (queueStage e cause s).1.ev.faults = s.ev.faults ∧ (queueStage e cause s).1.ev.overflows = s.ev.overflows ∧
      (queueStage e cause s).1.ev.nextFsn = s.ev.nextFsn ∧ (queueStage e cause s).1.route = s.route := by
  unfold queueStage queueRecord
  repeat' split
  all_goals exact ⟨rfl, rfl, rfl, rfl⟩

/-! ### A record that keeps its entries -/

/-- The fault record has no empty slot. -/
def RecordFull (s : State) : Prop := ∀ i, i < 64 → (tfind s.ev.faults i).isSome = true

/-- What the events of an overflow can change of the record: an entry's repeat count and a further overflow, and neither
of them where the host routes none of these events into the record. -/
structure KeepsRecord (s t : State) : Prop where
  route : t.route = s.route
  nextFsn : t.ev.nextFsn = s.ev.nextFsn
  overflows : min s.ev.overflows (2 ^ 32 - 1) ≤ t.ev.overflows
  entries : ∀ i x, tfind s.ev.faults i = some x → ∃ n, tfind t.ev.faults i = some { x with repeats := n }
  unrouted : (s.route 964).getLsbD 3 = false → (s.route 965).getLsbD 3 = false →
    t.ev.overflows = s.ev.overflows ∧ t.ev.faults = s.ev.faults

theorem KeepsRecord.of_same {s t : State} (hroute : t.route = s.route) (hfsn : t.ev.nextFsn = s.ev.nextFsn)
    (hoverflows : t.ev.overflows = s.ev.overflows) (hfaults : t.ev.faults = s.ev.faults) : KeepsRecord s t where
  route := hroute
  nextFsn := hfsn
  overflows := hoverflows ▸ Nat.min_le_left ..
  entries _ x hx := ⟨x.repeats, hfaults ▸ hx⟩
  unrouted _ _ := ⟨hoverflows, hfaults⟩

theorem KeepsRecord.refl (s : State) : KeepsRecord s s := .of_same rfl rfl rfl rfl

theorem KeepsRecord.trans {s t u : State} (h : KeepsRecord s t) (h' : KeepsRecord t u) : KeepsRecord s u where
  route := h'.route.trans h.route
  nextFsn := h'.nextFsn.trans h.nextFsn
  overflows := by have hst := h.overflows; have htu := h'.overflows; omega
  entries i x hx := by
    obtain ⟨n, hn⟩ := h.entries i x hx
    exact h'.entries i { x with repeats := n } hn
  unrouted h964 h965 := by
    obtain ⟨ho, hf⟩ := h.unrouted h964 h965
    obtain ⟨ho', hf'⟩ := h'.unrouted (h.route ▸ h964) (h.route ▸ h965)
    exact ⟨ho'.trans ho, hf'.trans hf⟩

theorem KeepsRecord.full {s t : State} (h : KeepsRecord s t) (hs : RecordFull s) : RecordFull t := by
  intro i hi
  obtain ⟨x, hx⟩ := Option.isSome_iff_exists.mp (hs i hi)
  obtain ⟨n, hn⟩ := h.entries i x hx
  rw [hn]
  rfl

theorem queueStage_keepsRecord (e cause : Nat) (s : State) : KeepsRecord s (queueStage e cause s).1 := by
  obtain ⟨hfaults, hoverflows, hfsn, hroute⟩ := queueStage_fields e cause s
  exact .of_same hroute hfsn hoverflows hfaults

/-! ### A fault at a full record -/

theorem satInc_eq_min (w n : Nat) : satInc w n = min (n + 1) (2 ^ w - 1) := by
  unfold satInc
  split <;> omega

theorem emptySlot_of_full {s : State} (hs : RecordFull s) : emptySlot s.ev.faults = none := by
  simpa [emptySlot, thas_eq_tfind, RecordFull, Option.isSome_iff_ne_none] using hs

/-- The overflow counter counts one fault more. -/
def overflowed (s : State) : State := { s with ev := { s.ev with overflows := satInc 32 s.ev.overflows } }

/-- A fault that no slot holds yet is counted as an overflow and not recorded. -/
theorem recordFault_of_full {s : State} {e : Nat} {f : FaultSpec} (hs : RecordFull s)
    (hheld : heldFault s.ev.faults e f.loc = none) :
    recordFault e f s = (overflowed s, true) := by
  simp only [recordFault, hheld, emptySlot_of_full hs, overflowed]

/-- One more repeat of an entry changes no other entry. -/
theorem tfind_tput_repeats {t : Tab FaultEntry} {i n : Nat} {x : FaultEntry} (hx : tfind t i = some x) (j : Nat)
    (y : FaultEntry) (hy : tfind t j = some y) :
    ∃ m, tfind (tput t i { x with repeats := n }) j = some { y with repeats := m } := by
  by_cases hj : j = i
  · subst hj
    obtain rfl : x = y := Option.some.inj (hx.symm.trans hy)
    exact ⟨n, tfind_tput_same ..⟩
  · exact ⟨y.repeats, (tfind_tput_other t i j _ hj).trans hy⟩

/-- An event of the overflow that is routed into a full record is merged there, or is one more overflow. -/
theorem recordFault_keepsRecord {s : State} {e : Nat} (f : FaultSpec) (hs : RecordFull s) (he : e = 964 ∨ e = 965)
    (hroute : (s.route e).getLsbD 3 = true) : KeepsRecord s (recordFault e f s).1 := by
  have hrouted (h964 : (s.route 964).getLsbD 3 = false) (h965 : (s.route 965).getLsbD 3 = false) : False := by
    rcases he with rfl | rfl <;> simp_all
  cases hheld : heldFault s.ev.faults e f.loc with
  | none =>
    rw [recordFault_of_full hs hheld]
    exact { route := rfl
            nextFsn := rfl
            overflows := by simp only [overflowed, satInc_eq_min]; omega
            entries := fun _ x hx => ⟨x.repeats, hx⟩
            unrouted := fun h964 h965 => (hrouted h964 h965).elim }
  | some i =>
    cases hx : tfind s.ev.faults i with
    | none =>
      simp only [recordFault, hheld, hx]
      exact .refl s
    | some x =>
      simp only [recordFault, hheld, hx]
      exact { route := rfl
              nextFsn := rfl
              overflows := Nat.min_le_left ..
              entries := tfind_tput_repeats hx
              unrouted := fun h964 h965 => (hrouted h964 h965).elim }

theorem recordStage_keepsRecord {s q : State} {e : Nat} {f : FaultSpec} (hf : f.always = false) (he : e = 964 ∨ e = 965)
    (hq : KeepsRecord s q) (hfull : RecordFull q) : KeepsRecord q (recordStage e f s q).1 := by
  unfold recordStage
  split
  · next h =>
    simp only [hf, Bool.false_or, Bool.and_eq_true, ← hq.route] at h
    exact recordFault_keepsRecord f hfull he h.2
  · exact .refl q

/-! ### The events of the overflow -/

theorem raiseIf_keepsRecord {n e : Nat} {s : State} (b : Bool) (h : KeepsRecord s (occur n e 0 none s)) :
    KeepsRecord s (raiseIf b n e s) := by
  cases b
  · exact .refl s
  · exact h

/-- The events of the overflow, and those that they raise in turn, keep a full record. -/
theorem occur_keepsRecord (n : Nat) : ∀ (e : Nat) (s : State), e = 964 ∨ e = 965 → RecordFull s →
    KeepsRecord s (occur n e 0 none s) := by
  induction n with
  | zero => intro e s _ _; exact .refl s
  | succ n ih =>
    intro e s he hs
    by_cases hpresent : eventPresent s.fuses.variant e = true
    · rw [occur_succ_of_present hpresent]
      have hq := queueStage_keepsRecord e 0 s
      have hr := hq.trans (recordStage_keepsRecord (f := { loc := sourceLocation e, always := false }) rfl he hq (hq.full hs))
      have hlost := hr.trans (raiseIf_keepsRecord (queueStage e 0 s).2 (ih 965 _ (.inr rfl) (hr.full hs)))
      exact hlost.trans (raiseIf_keepsRecord _ (ih 964 _ (.inl rfl) (hlost.full hs)))
    · rw [occur, if_neg hpresent]
      exact .refl s

theorem eventPresent_faultRecordFull (v : Variant) : eventPresent v 964 = true := by
  cases v <;> decide

section

variable {s : State} {e : Nat} {f : FaultSpec} (hpresent : eventPresent s.fuses.variant e = true) (hf : f.always = true)
  (hs : RecordFull s) (hheld : heldFault s.ev.faults e f.loc = none)
include hpresent hf hs hheld

/-- A fault that finds no empty slot: the overflow counted, then EV_EVENT_PACKET_LOST where its packet record was dropped,
then EV_FAULT_RECORD_FULL. -/
theorem raiseFault_of_full : raiseFault e f s =
    occur 5 964 0 none (raiseIf (queueStage e 0 s).2 5 965 (overflowed (queueStage e 0 s).1)) := by
  have hrecord : recordFault e f (queueStage e 0 s).1 = (overflowed (queueStage e 0 s).1, true) :=
    recordFault_of_full ((queueStage_keepsRecord e 0 s).full hs) ((queueStage_fields e 0 s).1.symm ▸ hheld)
  simp only [raiseFault, occur_succ_of_present hpresent, Option.getD_some, recordStage, hf, Bool.true_or, if_true, hrecord]
  rfl

theorem raiseFault_sets_faultRecordFull : (raiseFault e f s).stickyBit 964 = true := by
  rw [raiseFault_of_full hpresent hf hs hheld]
  exact occur_sticky 0 none (by decide) (eventPresent_faultRecordFull _)

/-- The fault itself does no more to the record than to count one overflow. -/
theorem raiseFault_keepsRecord : KeepsRecord (overflowed s) (raiseFault e f s) := by
  obtain ⟨hfaults, hoverflows, hfsn, hroute⟩ := queueStage_fields e 0 s
  have hcounted : KeepsRecord (overflowed s) (overflowed (queueStage e 0 s).1) :=
    .of_same hroute hfsn (congrArg (satInc 32) hoverflows) hfaults
  have hlost := hcounted.trans
    (raiseIf_keepsRecord (queueStage e 0 s).2 (occur_keepsRecord 5 965 _ (.inr rfl) (hcounted.full hs)))
  rw [raiseFault_of_full hpresent hf hs hheld]
  exact hlost.trans (occur_keepsRecord 5 964 _ (.inl rfl) (hlost.full hs))

end

/-- Settles O51: the fault counts one overflow, and the events that follow it keep the record. -/
theorem fullFaultRecord : Obligations.FullFaultRecord := by
  intro s e f hpresent hf hs hheld
  have hkeeps := raiseFault_keepsRecord hpresent hf hs hheld
  refine ⟨?_, raiseFault_sets_faultRecordFull hpresent hf hs hheld, hkeeps.nextFsn, hkeeps.entries, hkeeps.unrouted⟩
  calc satInc 32 s.ev.overflows
      = min (satInc 32 s.ev.overflows) (2 ^ 32 - 1) := by rw [satInc_eq_min]; omega
    _ ≤ (raiseFault e f s).ev.overflows := hkeeps.overflows

end Sys2Proof.Laws
